-- ==== Sys2Proof/Word.lean ====
section
/-! DEFINITION. The word types of the spec: a byte, a 24-bit flash address and the 32-bit host command word (00_scope.md section 4, 30_encoding.md R98). All values are unsigned (00_scope.md section 6). -/

namespace Sys2Proof

/-- An unsigned 8-bit value; also the width of a wire opcode (R4). -/
abbrev Byte := BitVec 8

/-- A flash address: ADDR_BITS = 24 (R3). -/
abbrev Addr := BitVec 24

/-- The host command word `cmd_word[31:0]` (R98). -/
abbrev CmdWord := BitVec 32

end Sys2Proof
end

