-- ==== Sys2Proof/Config.lean ====
section
/-! DEFINITION. The implementation parameters of 00_scope.md section 4, and the free values: what the spec leaves to the transport, to the device or to a parameter, as constants without a body. -/

namespace Sys2Proof

/-- TERR, the transport's error value (00_scope.md section 4, D14). PRESUMED shape (log entry 7): the spec keeps the type opaque; the model only stores and copies a value. -/
structure TErr where
  code : Nat
deriving DecidableEq, Repr, Inhabited

/-- One answer of the transport to a Transmit or a Receive (R6, R34, R35). For a Transmit, `ok` carries nothing of use and `err e reached` says how many of its bytes reached the device (R71); for a Receive in oracle mode, `ok bytes` supplies the received bytes. -/
inductive Answer where
  | ok (bytes : List Byte)
  | err (e : TErr) (reached : Nat)
deriving DecidableEq, Repr, Inhabited

/-- The parameters that are fixed for one machine (00_scope.md section 4); no step writes them. -/
structure Cfg where
  /-- POLL_LIMIT: `none` is UNBOUNDED, `some L` the integer L (R145). -/
  pollLimit : Option Nat
  /-- LEN_BITS (R5). -/
  lenBits : Nat
  /-- FLASH_SIZE, at most 2^24 (R62). -/
  flashSize : Fin (2 ^ 24 + 1)
deriving DecidableEq, Repr

namespace Cfg

/-- POLL_LIMIT is UNBOUNDED or an integer at least 1 (00_scope.md section 4). -/
def wf (c : Cfg) : Bool :=
  match c.pollLimit with
  | none => true
  | some l => decide (1 ≤ l)

/-- POLL_LIMIT as the spec defaults it; LEN_BITS and FLASH_SIZE are a DESIGN CHOICE (log entry 8). -/
def default : Cfg := { pollLimit := none, lenBits := 32, flashSize := ⟨2 ^ 24, by decide⟩ }

end Cfg

namespace Config

/-- PAGE_SIZE (R74). -/
def pageSize : Nat := 256

/-- SECTOR_SIZE (R74). -/
def sectorSize : Nat := 4096

/-- ERASED_BYTE, an OPEN parameter of the environment model (R77, log entry 12). -/
opaque erasedByte : Byte

/-- PROGRAM_FN(old, new), an OPEN parameter of the environment model (R77, log entry 12). -/
opaque programFn : Byte → Byte → Byte

/-- Free value: the byte at an address of an array whose contents are unspecified; the first argument tells one such array from another (R75, log entry 13). -/
opaque arrayByte : Nat → Nat → Byte

/-- Free value: the transport's answer when none is scripted (R6, log entry 6). -/
opaque freeAnswer : Nat → Answer

/-- Free value: byte i of a Receive whose bytes nothing fixes (R6, 93 items 16, 23, log entry 6). -/
opaque freeByte : Nat → Nat → Byte

/-- Free value: a draw of the environment when none is scripted (93 items 25 to 32, log entry 11). -/
opaque freeDraw : Nat → Nat

end Config
end Sys2Proof
end

