-- ==== Sys2Proof/Syntax.lean ====
section
/-! DEFINITION. The instructions: one constructor per row of spec/opcode_table.json, ten wire instructions (41_wire_instructions.md) and nine host commands (42_status_wel_ops.md, 43_erase_program_read_reset.md); the command a host presents and the encoded forms. -/

namespace Sys2Proof

/-- The nine host operations, the values of the block's field `op` (R20, R99). -/
inductive HostOp where
  | setWriteEnable
  | setWriteDisable
  | queryBusy
  | readStatusSnapshot
  | eraseSector
  | eraseChip
  | programPage
  | readData
  | resetDevice
deriving DecidableEq, Repr

/-- The wire frame formats of 30_encoding.md section 1 (R91). -/
inductive Format where
  | w0
  | w1
  | w2
  | w3
  | w4
deriving DecidableEq, Repr

/-- What a host presents: `cmd_word`, `cmd_len` and the payload (10_state.md section 3, R98). -/
structure Command where
  word : CmdWord
  len : Nat
  payload : List Byte
deriving DecidableEq, Repr

/-- The instructions. A host command carries ADDR and LEN even where its operation ignores them, because acceptance writes both fields for every operation (R23, R101). -/
inductive Instr where
  /-- WREN 0x06 (R161). -/
  | wren
  /-- WRDI 0x04 (R162). -/
  | wrdi
  /-- RDSR1 0x05 (R163). -/
  | rdsr1
  /-- RDSR2 0x35 (R164). -/
  | rdsr2
  /-- PP 0x02: address and payload (R165). -/
  | pp (addr : Addr) (data : List Byte)
  /-- READ 0x03: address and the number of bytes received (R166). -/
  | read (addr : Addr) (len : Nat)
  /-- SE 0x20 (R167). -/
  | se (addr : Addr)
  /-- CE 0xC7 (R168). -/
  | ce
  /-- RSTEN 0x66 (R169). -/
  | rsten
  /-- RST 0x99 (R170). -/
  | rst
  /-- CMD 0x0 (R190). -/
  | setWriteEnable (addr : Addr) (len : Nat)
  /-- CMD 0x1 (R192). -/
  | setWriteDisable (addr : Addr) (len : Nat)
  /-- CMD 0x2 (R194). -/
  | queryBusy (addr : Addr) (len : Nat)
  /-- CMD 0x3 (R196). -/
  | readStatusSnapshot (addr : Addr) (len : Nat)
  /-- CMD 0x4 (R220). -/
  | eraseSector (addr : Addr) (len : Nat)
  /-- CMD 0x5 (R223). -/
  | eraseChip (addr : Addr) (len : Nat)
  /-- CMD 0x6 (R226). -/
  | programPage (addr : Addr) (len : Nat) (data : List Byte)
  /-- CMD 0x7 (R230). -/
  | readData (addr : Addr) (len : Nat)
  /-- CMD 0x8 (R234). -/
  | resetDevice (addr : Addr) (len : Nat)
deriving DecidableEq, Repr

/-- An instruction in its encoded form: a wire frame (transmit part, and how many bytes its receive part has, `none` for no receive part) or a host command. -/
inductive Encoded where
  | frame (tx : List Byte) (rx : Option Nat)
  | command (c : Command)
deriving DecidableEq, Repr

/-- Why bytes or a command are no instruction. -/
inductive DecodeError where
  /-- An empty transmit part. -/
  | noBytes
  /-- Byte 0 is none of the ten opcodes (R95, R97). -/
  | unknownOpcode (b : Byte)
  /-- Fewer than the three address bytes of W2, W3 and W4 (R92). -/
  | truncatedAddress
  /-- Bytes after the end of a W0, W1, W2 or W4 transmit part (R91). -/
  | trailingBytes
  /-- A receive part the opcode's format does not have, or none where it has one (R96). -/
  | wrongReceivePart
  /-- CMD in 0x9 to 0xF (R100). -/
  | reservedCmd
  /-- RSV not 0 (R100). -/
  | reservedBits
  /-- LEN does not fit LEN_BITS (R5). -/
  | lenTooWide
  /-- A programPage payload whose length is not LEN (R32). -/
  | payloadLength
  /-- A non-empty payload with another operation (R101). -/
  | payloadNotTaken
deriving DecidableEq, Repr

end Sys2Proof
end

