-- ==== Sys2Proof/WellFormed.lean ====
section
/-! DEFINITION. Which instructions are well formed: LEN fits LEN_BITS (R5), and a programPage payload has exactly LEN bytes (R32). -/

namespace Sys2Proof

/-- LEN is in 0 to 2^LEN_BITS - 1 (R5). -/
def lenFits (cfg : Cfg) (n : Nat) : Bool := decide (n < 2 ^ cfg.lenBits)

/-- Well-formedness of an instruction (R5, R32). -/
def Instr.wf (cfg : Cfg) : Instr → Bool
  | .wren => true
  | .wrdi => true
  | .rdsr1 => true
  | .rdsr2 => true
  | .pp _ data => lenFits cfg data.length
  | .read _ len => lenFits cfg len
  | .se _ => true
  | .ce => true
  | .rsten => true
  | .rst => true
  | .setWriteEnable _ len => lenFits cfg len
  | .setWriteDisable _ len => lenFits cfg len
  | .queryBusy _ len => lenFits cfg len
  | .readStatusSnapshot _ len => lenFits cfg len
  | .eraseSector _ len => lenFits cfg len
  | .eraseChip _ len => lenFits cfg len
  | .programPage _ len data => lenFits cfg len && decide (data.length = len)
  | .readData _ len => lenFits cfg len
  | .resetDevice _ len => lenFits cfg len

/-- The host commands among the instructions. -/
def Instr.hostOp? : Instr → Option HostOp
  | .wren => none
  | .wrdi => none
  | .rdsr1 => none
  | .rdsr2 => none
  | .pp _ _ => none
  | .read _ _ => none
  | .se _ => none
  | .ce => none
  | .rsten => none
  | .rst => none
  | .setWriteEnable _ _ => some .setWriteEnable
  | .setWriteDisable _ _ => some .setWriteDisable
  | .queryBusy _ _ => some .queryBusy
  | .readStatusSnapshot _ _ => some .readStatusSnapshot
  | .eraseSector _ _ => some .eraseSector
  | .eraseChip _ _ => some .eraseChip
  | .programPage _ _ _ => some .programPage
  | .readData _ _ => some .readData
  | .resetDevice _ _ => some .resetDevice

end Sys2Proof
end

