-- ==== Sys2Proof/Decode.lean ====
section
/-! DEFINITION. Decoding and encoding: the opcode map and frame formats (30_encoding.md sections 1 and 2), the address encoder and the payload serializer (R130 to R133), the host command word (30_encoding.md section 3). Decoding is total and names what it rejects. -/

namespace Sys2Proof

/-- The address encoder: most significant byte first (R130, R63). -/
def addrBytes (a : Addr) : List Byte :=
  [a.extractLsb' 16 8, a.extractLsb' 8 8, a.extractLsb' 0 8]

/-- The address three wire bytes spell (R131). -/
def addrOfBytes (b0 b1 b2 : Byte) : Addr :=
  (b0.setWidth 24 <<< 16) ||| (b1.setWidth 24 <<< 8) ||| b2.setWidth 24

/-- The transmit part of a frame from its opcode, format and operands (R132, R133). -/
def txBytes (fmt : Format) (opc : Byte) (a : Addr) (data : List Byte) : List Byte :=
  match fmt with
  | .w0 => [opc]
  | .w1 => [opc]
  | .w2 => opc :: addrBytes a
  | .w3 => opc :: addrBytes a ++ data
  | .w4 => opc :: addrBytes a

/-- The opcodes of the wire instructions (R95). -/
def opcWREN : Byte := 0x06
def opcWRDI : Byte := 0x04
def opcRDSR1 : Byte := 0x05
def opcRDSR2 : Byte := 0x35
def opcPP : Byte := 0x02
def opcREAD : Byte := 0x03
def opcSE : Byte := 0x20
def opcCE : Byte := 0xC7
def opcRSTEN : Byte := 0x66
def opcRST : Byte := 0x99

/-- The ten wire opcodes; the block emits no other byte 0 (R95, R97). -/
def wireOpcodes : List Byte :=
  [opcWREN, opcWRDI, opcRDSR1, opcRDSR2, opcPP, opcREAD, opcSE, opcCE, opcRSTEN, opcRST]

/-- The CMD code of a host operation (R99). -/
def cmdCode : HostOp → BitVec 4
  | .setWriteEnable => 0x0
  | .setWriteDisable => 0x1
  | .queryBusy => 0x2
  | .readStatusSnapshot => 0x3
  | .eraseSector => 0x4
  | .eraseChip => 0x5
  | .programPage => 0x6
  | .readData => 0x7
  | .resetDevice => 0x8

/-- The operation a CMD code selects; 0x9 to 0xF select none (R99, R100). -/
def opOfCmd (c : BitVec 4) : Option HostOp :=
  match c.toNat with
  | 0 => some .setWriteEnable
  | 1 => some .setWriteDisable
  | 2 => some .queryBusy
  | 3 => some .readStatusSnapshot
  | 4 => some .eraseSector
  | 5 => some .eraseChip
  | 6 => some .programPage
  | 7 => some .readData
  | 8 => some .resetDevice
  | _ => none

/-- CMD = cmd_word[31:28] (R98). -/
def cmdField (w : CmdWord) : BitVec 4 := w.extractLsb' 28 4

/-- RSV = cmd_word[27:24] (R98). -/
def rsvField (w : CmdWord) : BitVec 4 := w.extractLsb' 24 4

/-- ADDR = cmd_word[23:0], used unchanged (R98, R102). -/
def addrField (w : CmdWord) : Addr := w.extractLsb' 0 24

/-- The command word `(CMD << 28) | A` (R105), RSV 0. -/
def cmdWord (op : HostOp) (a : Addr) : CmdWord :=
  (cmdCode op).setWidth 32 <<< 28 ||| a.setWidth 32

/-- The receive part of a wire instruction: one byte for W1, LEN bytes for W4, none otherwise (R96). -/
def Instr.rxPart : Instr → Option Nat
  | .wren => none
  | .wrdi => none
  | .rdsr1 => some 1
  | .rdsr2 => some 1
  | .pp _ _ => none
  | .read _ len => some len
  | .se _ => none
  | .ce => none
  | .rsten => none
  | .rst => none
  | .setWriteEnable _ _ => none
  | .setWriteDisable _ _ => none
  | .queryBusy _ _ => none
  | .readStatusSnapshot _ _ => none
  | .eraseSector _ _ => none
  | .eraseChip _ _ => none
  | .programPage _ _ _ => none
  | .readData _ _ => none
  | .resetDevice _ _ => none

/-- The three address bytes at the head of a list, with what follows them (R92). -/
def takeAddr (bs : List Byte) : Except DecodeError (Addr × List Byte) :=
  match bs with
  | b0 :: b1 :: b2 :: rest => .ok (addrOfBytes b0 b1 b2, rest)
  | _ => .error .truncatedAddress

/-- Reads one wire instruction from the head of a byte list and answers it with the bytes after it. The opcode fixes the format (R96); a PP takes every byte after its address as payload (R93); `rxLen` is the length of the receive part, which no byte of the wire carries (R96). -/
def decodeWire (rxLen : Nat) (bs : List Byte) : Except DecodeError (Instr × List Byte) :=
  match bs with
  | [] => .error .noBytes
  | opc :: rest =>
    if opc = opcWREN then .ok (.wren, rest)
    else if opc = opcWRDI then .ok (.wrdi, rest)
    else if opc = opcRDSR1 then .ok (.rdsr1, rest)
    else if opc = opcRDSR2 then .ok (.rdsr2, rest)
    else if opc = opcPP then
      match takeAddr rest with
      | .ok (a, data) => .ok (.pp a data, [])
      | .error e => .error e
    else if opc = opcREAD then
      match takeAddr rest with
      | .ok (a, rest') => .ok (.read a rxLen, rest')
      | .error e => .error e
    else if opc = opcSE then
      match takeAddr rest with
      | .ok (a, rest') => .ok (.se a, rest')
      | .error e => .error e
    else if opc = opcCE then .ok (.ce, rest)
    else if opc = opcRSTEN then .ok (.rsten, rest)
    else if opc = opcRST then .ok (.rst, rest)
    else .error (.unknownOpcode opc)

/-- A whole frame: its transmit part is one wire instruction with nothing after it, and its receive part is the one that instruction has (R90, R91, R96). -/
def decodeFrame (tx : List Byte) (rx : Option Nat) : Except DecodeError Instr :=
  match decodeWire (rx.getD 0) tx with
  | .error e => .error e
  | .ok (i, []) => if i.rxPart = rx then .ok i else .error .wrongReceivePart
  | .ok (_, _ :: _) => .error .trailingBytes

/-- A decoded host command of an operation that takes no payload (R101). -/
def withoutPayload (c : Command) (i : Instr) : Except DecodeError Instr :=
  if c.payload = [] then .ok i else .error .payloadNotTaken

/-- Decodes a presented command (R98 to R102, R5, R32): a LEN the port cannot carry first, then RSV and CMD, then the payload. -/
def decodeCommand (cfg : Cfg) (c : Command) : Except DecodeError Instr :=
  if lenFits cfg c.len = false then .error .lenTooWide
  else if rsvField c.word ≠ 0 then .error .reservedBits
  else
    match opOfCmd (cmdField c.word) with
    | none => .error .reservedCmd
    | some .setWriteEnable => withoutPayload c (.setWriteEnable (addrField c.word) c.len)
    | some .setWriteDisable => withoutPayload c (.setWriteDisable (addrField c.word) c.len)
    | some .queryBusy => withoutPayload c (.queryBusy (addrField c.word) c.len)
    | some .readStatusSnapshot => withoutPayload c (.readStatusSnapshot (addrField c.word) c.len)
    | some .eraseSector => withoutPayload c (.eraseSector (addrField c.word) c.len)
    | some .eraseChip => withoutPayload c (.eraseChip (addrField c.word) c.len)
    | some .programPage =>
      if c.payload.length = c.len then .ok (.programPage (addrField c.word) c.len c.payload)
      else .error .payloadLength
    | some .readData => withoutPayload c (.readData (addrField c.word) c.len)
    | some .resetDevice => withoutPayload c (.resetDevice (addrField c.word) c.len)

/-- Decoding of either encoded form. -/
def decode (cfg : Cfg) : Encoded → Except DecodeError Instr
  | .frame tx rx => decodeFrame tx rx
  | .command c => decodeCommand cfg c

/-- The encoder: a wire instruction as its frame (30_encoding.md sections 1 and 2), a host command as its command word, LEN and payload (R98, R99, R105). -/
def encode : Instr → Encoded
  | .wren => .frame (txBytes .w0 opcWREN 0 []) none
  | .wrdi => .frame (txBytes .w0 opcWRDI 0 []) none
  | .rdsr1 => .frame (txBytes .w1 opcRDSR1 0 []) (some 1)
  | .rdsr2 => .frame (txBytes .w1 opcRDSR2 0 []) (some 1)
  | .pp a data => .frame (txBytes .w3 opcPP a data) none
  | .read a len => .frame (txBytes .w4 opcREAD a []) (some len)
  | .se a => .frame (txBytes .w2 opcSE a []) none
  | .ce => .frame (txBytes .w0 opcCE 0 []) none
  | .rsten => .frame (txBytes .w0 opcRSTEN 0 []) none
  | .rst => .frame (txBytes .w0 opcRST 0 []) none
  | .setWriteEnable a len => .command ⟨cmdWord .setWriteEnable a, len, []⟩
  | .setWriteDisable a len => .command ⟨cmdWord .setWriteDisable a, len, []⟩
  | .queryBusy a len => .command ⟨cmdWord .queryBusy a, len, []⟩
  | .readStatusSnapshot a len => .command ⟨cmdWord .readStatusSnapshot a, len, []⟩
  | .eraseSector a len => .command ⟨cmdWord .eraseSector a, len, []⟩
  | .eraseChip a len => .command ⟨cmdWord .eraseChip a, len, []⟩
  | .programPage a len data => .command ⟨cmdWord .programPage a, len, data⟩
  | .readData a len => .command ⟨cmdWord .readData a, len, []⟩
  | .resetDevice a len => .command ⟨cmdWord .resetDevice a, len, []⟩

/-- The instruction the decoder reads from an instruction of spec/opcode_table.json: an 8-bit row is the opcode byte of a wire frame, whose operand bytes (above `nbits`) are zeros; a 32-bit row is a host command word, whose LEN is 0 and whose payload is empty. -/
def decodeTableWord (nbits w : Nat) : Option Instr :=
  if nbits = 8 ∧ w < 2 ^ 8 then
    match decodeWire 0 [BitVec.ofNat 8 w, 0, 0, 0] with
    | .ok (i, _) => some i
    | .error _ => none
  else if nbits = 32 ∧ w < 2 ^ 32 then
    match decodeCommand Cfg.default ⟨BitVec.ofNat 32 w, 0, []⟩ with
    | .ok i => some i
    | .error _ => none
  else none

end Sys2Proof
end

