-- ==== Sys2Proof/Machine/State.lean ====
section
/-! DEFINITION. The state: the block's fields of 10_state.md (R20), the host and transport interfaces, the optional device of the environment model (R76), the observation (R2), and the parameters. Plain data. -/

namespace Sys2Proof.Machine

/-- `phase` (R20). -/
inductive Phase where
  | idle
  | run
deriving DecidableEq, Repr

/-- `fstep`, the sub-step inside the current frame (R20, R150). -/
inductive FStep where
  | sel
  | tx
  | rx
  | desel
deriving DecidableEq, Repr

/-- BusyState (R27). -/
inductive BusyState where
  | notBusy
  | busy
  | indeterminate
deriving DecidableEq, Repr

/-- How an operation ends: OK, or the abort cause a `raise` names (00_scope.md section 6; 60_exceptions.md section 1). -/
inductive OpOutcome where
  | ok
  | transportError (e : TErr)
  | indeterminate
  | pollLimit (l : Nat)
deriving DecidableEq, Repr

/-- The status of a response (R103). -/
inductive Status where
  | ok
  | transportError
  | indeterminate
  | pollLimit
  | illegalCommand
deriving DecidableEq, Repr

/-- A response; `none` is `<undef>`: the field is not valid for this response (R31). -/
structure Response where
  status : Status
  terr : Option TErr
  busyState : Option BusyState
  sr1 : Option Byte
  sr2 : Option Byte
  rdata : Option (List Byte)
deriving DecidableEq, Repr

/-- The result of a Transmit (R34). -/
inductive TxResult where
  | ok
  | err (e : TErr)
deriving DecidableEq, Repr

/-- The result of a Receive (R35). -/
inductive RxResult where
  | ok (bytes : List Byte)
  | err (e : TErr)
deriving DecidableEq, Repr

/-- The events of a run: the host's transfers (R30) and the transport events (10_state.md section 4). -/
inductive Event where
  | cmd (word : CmdWord) (len : Nat) (payload : List Byte)
  | sel
  | desel
  | tx (bytes : List Byte) (result : TxResult)
  | rx (n : Nat) (result : RxResult)
  | resp (r : Response)
deriving DecidableEq, Repr

/-- What a page of the device array holds where no byte was written since: erased bytes, or a content nothing fixes (R75, R77, log entry 13). -/
inductive Fill where
  | erased
  | unknown (k : Nat)
deriving DecidableEq, Repr

/-- The device array Mem (R75): the bytes written, the pages whose fill differs from the rest, and the fill of the rest. -/
structure FlashArray where
  cells : List Host.Cell
  pages : List (Nat × Fill)
  rest : Fill
deriving DecidableEq, Repr

/-- The pending-operation record of the environment model (R76): what the device is doing while BUSY = 1. `unspecified` is an activity that an unspecified effect left behind (93 items 30, 31). -/
inductive Pending where
  | program (addr : Addr) (data : List Byte)
  | eraseSector (addr : Addr)
  | eraseChip
  | unspecified
deriving DecidableEq, Repr

/-- The device of the environment model (R76). BUSY is 1 exactly while `pending` is some (R172, log entry 14); `armed` says that an RSTEN was received and no whole instruction since (93 item 32, log entry 16). -/
structure Device where
  array : FlashArray
  wel : Bool
  pending : Option Pending
  sr1hi : BitVec 7
  sr2 : Byte
  armed : Bool
deriving DecidableEq, Repr

/-- The transport-and-device agent (R6): the answers to come, whether the environment model is attached, the device, the bytes of the open window that have reached it, and the draws. -/
structure World where
  answers : List Answer
  attached : Bool
  dev : Device
  wire : List Byte
  draws : List Nat
  drawCount : Nat
deriving DecidableEq, Repr

/-- The block's state: exactly the fields of the table of 10_state.md (R20). `none` is `<undef>` (R290, log entry 2), except in `pend`, where it is the spec's `none`. -/
structure Block where
  phase : Phase
  op : Option HostOp
  upc : Option Nat
  fstep : Option FStep
  cs : Bool
  addr : Option Addr
  len : Option Nat
  payload : Option (List Byte)
  rxbuf : Option (List Byte)
  polls : Nat
  pend : Option OpOutcome
  bstate : Option BusyState
  sr1 : Option Byte
  sr2 : Option Byte
  rdata : Option (List Byte)
deriving DecidableEq, Repr

/-- The fields a reader can find `<undef>` (00_scope.md section 6). -/
inductive Field where
  | op
  | upc
  | fstep
  | addr
  | len
  | payload
  | rxbuf
  | respTerr
  | respBusyState
  | respSr1
  | respSr2
  | respRdata
deriving DecidableEq, Repr

/-- Why the machine stops. -/
inductive Fault where
  /-- Raised by any read of an `<undef>` field, and by the host's read of a response field that is not valid (00_scope.md section 6, R31, D36). No step of a run from reset raises it. Safe: the model stops where nothing is specified. -/
  | undefRead (f : Field)
  /-- Raised by a wire instruction in sub-step RX whose format has no receive part: no run reaches it (R96, R138, R150). Safe. -/
  | noReceivePart
  /-- Raised in phase RUN when the current micro-operation is beyond the micro-program, or its frame is no wire instruction: no run reaches it (R24, R97). Safe. -/
  | noInstruction
deriving DecidableEq, Repr

/-- Why a step has no meaning: a move the spec says cannot be made. -/
inductive Refusal where
  /-- Raised by an arm of exec whose instruction has no meaning yet. Safe. -/
  | notModelled (mnemonic : String)
  /-- Raised by a wire instruction while no operation runs: the block issues no transport event while IDLE (R36, R160). Safe. -/
  | noOperation
  /-- Raised by a host command while `ready = 0`: the host has no such move (R296, 93 item 5). Safe. -/
  | notReady
  /-- Raised by step on a presented command whose LEN does not fit LEN_BITS: the port cannot carry it (R5). Safe. -/
  | lenTooWide
  /-- Raised by step on a programPage command whose payload length is not LEN (R32, 93 item 6). Safe. -/
  | payloadLength
  /-- Raised by step on a command of another operation with a non-empty payload (R101, 93 item 7). Safe. -/
  | payloadNotTaken
deriving DecidableEq, Repr

end Sys2Proof.Machine

namespace Sys2Proof.Machine

/-- The whole machine: the block, its environment, the observed trace, the commands the host will present, the block reset input and the parameters. -/
structure State where
  blk : Block
  world : World
  trace : List Event
  host : List Command
  resetPin : Bool
  cfg : Cfg
deriving DecidableEq, Repr

/-- The block after a block reset (R290). -/
def Block.reset : Block where
  phase := .idle
  op := none
  upc := none
  fstep := none
  cs := false
  addr := none
  len := none
  payload := none
  rxbuf := none
  polls := 0
  pend := none
  bstate := none
  sr1 := none
  sr2 := none
  rdata := none

/-- A device of which the model knows nothing in its array; its latches are a DESIGN CHOICE (R295, log entry 10). -/
def Device.reset : Device where
  array := { cells := [], pages := [], rest := .unknown 0 }
  wel := false
  pending := none
  sr1hi := 0
  sr2 := 0
  armed := false

/-- The environment before the first event: the oracle of R6, nothing scripted (log entries 6, 9, 11). -/
def World.reset : World where
  answers := []
  attached := false
  dev := Device.reset
  wire := []
  draws := []
  drawCount := 0

/-- The machine right after reset (R290, R293): IDLE, no command presented, nothing observed yet. -/
def State.reset : State where
  blk := Block.reset
  world := World.reset
  trace := []
  host := []
  resetPin := false
  cfg := Cfg.default

end Sys2Proof.Machine
end

