-- ==== Sys2Proof/Machine/Flags.lean ====
section
/-! DEFINITION. The only flag the block reads is the BUSY bit (R29): its decode, and the codes of the response's status and busy_state (30_encoding.md section 4). -/

namespace Sys2Proof.Machine

/-- The BusyState decode of a received status byte (R143). The last branch is unreachable (R28) and kept. -/
def decodeBusy (b : Byte) : BusyState :=
  let m : Byte := b &&& 0x01
  if m = 0x00 then .notBusy
  else if m = 0x01 then .busy
  else .indeterminate

/-- The 2-bit code of busy_state (R104). -/
def busyCode : BusyState → BitVec 2
  | .notBusy => 0b00
  | .busy => 0b01
  | .indeterminate => 0b10

/-- The 3-bit code of status (R103). -/
def statusCode : Status → BitVec 3
  | .ok => 0
  | .transportError => 1
  | .indeterminate => 2
  | .pollLimit => 3
  | .illegalCommand => 4

/-- The status that reports an outcome (60_exceptions.md section 1). -/
def OpOutcome.status : OpOutcome → Status
  | .ok => .ok
  | .transportError _ => .transportError
  | .indeterminate => .indeterminate
  | .pollLimit _ => .pollLimit

/-- The error value an outcome carries: only a transport error has one (R31, R251). -/
def OpOutcome.terr : OpOutcome → Option TErr
  | .ok => none
  | .transportError e => some e
  | .indeterminate => none
  | .pollLimit _ => none

end Sys2Proof.Machine
end

