-- ==== Sys2Proof/Machine/Operands.lean ====
section
/-! DEFINITION. The micro-operations and the micro-program of each host operation (R137, R140, R142), and how the block reads its operand fields and finds its current micro-operation. A read of an `<undef>` field is a fault of the reader (00_scope.md section 6). -/

namespace Sys2Proof.Machine

/-- Where a successful receive goes (40_framer.md section 3). POLL is the destination of WAIT_IDLE's own frame. -/
inductive Dst where
  | none
  | bq
  | sr1
  | sr2
  | rd
deriving DecidableEq, Repr

/-- A micro-operation: WAIT_IDLE, or FRAME(tx, rx, dst) (R134, R144). -/
inductive MicroOp where
  | waitIdle
  | frame (tx : List Byte) (rx : Option Nat) (dst : Dst)
deriving DecidableEq, Repr

/-- The transmit part of a micro-operation's frame; a poll sends RDSR1 (R142, R150). -/
def MicroOp.tx : MicroOp → List Byte
  | .waitIdle => txBytes .w1 opcRDSR1 0 []
  | .frame tx _ _ => tx

/-- The receive part of a micro-operation's frame; a poll receives one byte (R142, R150). -/
def MicroOp.rx : MicroOp → Option Nat
  | .waitIdle => some 1
  | .frame _ rx _ => rx

/-- A frame of format W0 that stores nothing. -/
def bareFrame (opc : Byte) : MicroOp := .frame (txBytes .w0 opc 0 []) none .none

/-- The write-enable step and the second wait of a write-class operation, before its command frame (R141). -/
def writeClass (command : MicroOp) : List MicroOp :=
  [.waitIdle, bareFrame opcWREN, .waitIdle, command]

/-- Reads the field `op`. -/
def Block.readOp (b : Block) : Except Fault HostOp :=
  match b.op with
  | some op => .ok op
  | none => .error (.undefRead .op)

/-- Reads the field `upc`. -/
def Block.readUpc (b : Block) : Except Fault Nat :=
  match b.upc with
  | some n => .ok n
  | none => .error (.undefRead .upc)

/-- Reads the field `addr`. -/
def Block.readAddr (b : Block) : Except Fault Addr :=
  match b.addr with
  | some a => .ok a
  | none => .error (.undefRead .addr)

/-- Reads the field `len`. -/
def Block.readLen (b : Block) : Except Fault Nat :=
  match b.len with
  | some n => .ok n
  | none => .error (.undefRead .len)

/-- Reads the field `payload`. -/
def Block.readPayload (b : Block) : Except Fault (List Byte) :=
  match b.payload with
  | some d => .ok d
  | none => .error (.undefRead .payload)

/-- Reads byte 0 of `rxbuf`. -/
def Block.readRx0 (b : Block) : Except Fault Byte :=
  match b.rxbuf with
  | some (x :: _) => .ok x
  | some [] => .error (.undefRead .rxbuf)
  | none => .error (.undefRead .rxbuf)

/-- Reads all of `rxbuf`. -/
def Block.readRx (b : Block) : Except Fault (List Byte) :=
  match b.rxbuf with
  | some bs => .ok bs
  | none => .error (.undefRead .rxbuf)

/-- Prog(op), row setWriteEnable (R140, R190). -/
def progSetWriteEnable (_ : Block) : Except Fault (List MicroOp) := .ok [.waitIdle, bareFrame opcWREN]

/-- Prog(op), row setWriteDisable (R140, R192). -/
def progSetWriteDisable (_ : Block) : Except Fault (List MicroOp) := .ok [bareFrame opcWRDI]

/-- Prog(op), row queryBusy (R140, R194). -/
def progQueryBusy (_ : Block) : Except Fault (List MicroOp) :=
  .ok [.frame (txBytes .w1 opcRDSR1 0 []) (some 1) .bq]

/-- Prog(op), row readStatusSnapshot (R140, R196). -/
def progReadStatusSnapshot (_ : Block) : Except Fault (List MicroOp) :=
  .ok [.frame (txBytes .w1 opcRDSR1 0 []) (some 1) .sr1, .frame (txBytes .w1 opcRDSR2 0 []) (some 1) .sr2]

/-- Prog(op), row eraseSector (R140, R220). -/
def progEraseSector (b : Block) : Except Fault (List MicroOp) :=
  match b.readAddr with
  | .error f => .error f
  | .ok a => .ok (writeClass (.frame (txBytes .w2 opcSE a []) none .none))

/-- Prog(op), row eraseChip (R140, R223). -/
def progEraseChip (_ : Block) : Except Fault (List MicroOp) := .ok (writeClass (bareFrame opcCE))

/-- Prog(op), row programPage (R140, R226). -/
def progProgramPage (b : Block) : Except Fault (List MicroOp) :=
  match b.readAddr with
  | .error f => .error f
  | .ok a =>
    match b.readPayload with
    | .error f => .error f
    | .ok d => .ok (writeClass (.frame (txBytes .w3 opcPP a d) none .none))

/-- Prog(op), row readData (R140, R230). -/
def progReadData (b : Block) : Except Fault (List MicroOp) :=
  match b.readAddr with
  | .error f => .error f
  | .ok a =>
    match b.readLen with
    | .error f => .error f
    | .ok n => .ok [.waitIdle, .frame (txBytes .w4 opcREAD a []) (some n) .rd]

/-- Prog(op), row resetDevice (R140, R234). -/
def progResetDevice (_ : Block) : Except Fault (List MicroOp) := .ok [bareFrame opcRSTEN, bareFrame opcRST]

/-- The micro-program of the running operation (R140). -/
def Block.prog (b : Block) : Except Fault (List MicroOp) :=
  match b.readOp with
  | .error f => .error f
  | .ok .setWriteEnable => progSetWriteEnable b
  | .ok .setWriteDisable => progSetWriteDisable b
  | .ok .queryBusy => progQueryBusy b
  | .ok .readStatusSnapshot => progReadStatusSnapshot b
  | .ok .eraseSector => progEraseSector b
  | .ok .eraseChip => progEraseChip b
  | .ok .programPage => progProgramPage b
  | .ok .readData => progReadData b
  | .ok .resetDevice => progResetDevice b

/-- Where the block stands in its micro-program: the current micro-operation `Prog(op)[upc]`, upc, and |Prog(op)| (R150). -/
structure Current where
  mop : MicroOp
  upc : Nat
  size : Nat
deriving DecidableEq, Repr

/-- Finds the current micro-operation (R24, R150). -/
def Block.current (b : Block) : Except Fault Current :=
  match b.prog with
  | .error f => .error f
  | .ok p =>
    match b.readUpc with
    | .error f => .error f
    | .ok u =>
      match p[u]? with
      | none => .error .noInstruction
      | some m => .ok { mop := m, upc := u, size := p.length }

/-- The wire instruction of the current micro-operation: what the block's frame says when a receiver decodes it (R90, R96, R160). -/
def Block.fetch (b : Block) : Except Fault Instr :=
  match b.current with
  | .error f => .error f
  | .ok c =>
    match decodeFrame c.mop.tx c.mop.rx with
    | .ok i => .ok i
    | .error _ => .error .noInstruction

end Sys2Proof.Machine
end

