-- ==== Sys2Proof/Machine/Memory.lean ====
section
/-! DEFINITION. The device array Mem of the environment model (R73 to R77): reading and writing one byte, filling a page, the canonical form. An unlisted byte reads as its page's fill. -/

namespace Sys2Proof.Machine

/-- The entry of a key in a list of pairs. -/
def assoc {α : Type} : List (Nat × α) → Nat → Option α
  | [], _ => none
  | (j, w) :: t, k => if k = j then some w else assoc t k

/-- Sets the entry of a key in a list with strictly rising keys. -/
def put {α : Type} (k : Nat) (v : α) : List (Nat × α) → List (Nat × α)
  | [] => [(k, v)]
  | (j, w) :: t =>
    if k < j then (k, v) :: (j, w) :: t
    else if k = j then (k, v) :: t
    else (j, w) :: put k v t

/-- The keys are at least `lo` and strictly rising. -/
def rising {α : Type} (lo : Nat) : List (Nat × α) → Bool
  | [] => true
  | (j, _) :: t => decide (lo ≤ j) && rising (j + 1) t

/-- What an address reads as that the fill of its page decides: ERASED_BYTE, or a byte nothing fixes (R75, R77). -/
def Fill.byte (f : Fill) (a : Nat) : Byte :=
  match f with
  | .erased => Config.erasedByte
  | .unknown k => Config.arrayByte k a

/-- The page of an address (R74). -/
def pageOf (a : Nat) : Nat := a / Config.pageSize

/-- The fill of a page. -/
def FlashArray.fill (m : FlashArray) (p : Nat) : Fill :=
  match assoc m.pages p with
  | some f => f
  | none => m.rest

/-- What an unlisted address reads as (log entry 13). -/
def FlashArray.unlisted (m : FlashArray) (a : Nat) : Byte := (m.fill (pageOf a)).byte a

/-- Reads one byte of the array: Mem(a) (R75). -/
def FlashArray.readByte (m : FlashArray) (a : Nat) : Byte :=
  match assoc m.cells a with
  | some b => b
  | none => m.unlisted a

/-- Writes one byte of the array. -/
def FlashArray.writeByte (m : FlashArray) (a : Nat) (b : Byte) : FlashArray :=
  { m with cells := put a b m.cells }

/-- Gives a whole page one fill: its written bytes are forgotten. A page whose fill is that of the rest is not listed. -/
def FlashArray.setPage (m : FlashArray) (p : Nat) (f : Fill) : FlashArray :=
  { m with
    cells := m.cells.filter (fun c => decide (pageOf c.1 ≠ p))
    pages :=
      if f = m.rest then m.pages.filter (fun c => decide (c.1 ≠ p))
      else put p f m.pages }

/-- Gives `n` pages from page `p` on one fill. -/
def FlashArray.setPages (m : FlashArray) (p : Nat) (f : Fill) : Nat → FlashArray
  | 0 => m
  | n + 1 => (FlashArray.setPages m p f n).setPage (p + n) f

/-- Gives the whole array one fill. -/
def FlashArray.fillAll (f : Fill) : FlashArray := { cells := [], pages := [], rest := f }

/-- Programs a list of bytes from address `a` on: each byte becomes PROGRAM_FN(old, new) (R77). -/
def FlashArray.programBytes (m : FlashArray) (a : Nat) : List Byte → FlashArray
  | [] => m
  | b :: bs => (m.writeByte a (Config.programFn (m.readByte a) b)).programBytes (a + 1) bs

/-- The canonical form: written addresses and listed pages strictly rising, and no listed page with the fill of the rest (log entry 13). -/
def FlashArray.wf (m : FlashArray) : Bool :=
  rising 0 m.cells && rising 0 m.pages && m.pages.all (fun c => decide (c.2 ≠ m.rest))

/-- The sector base of an address, `a & 0xFFF000` (R74). -/
def sectorBase (a : Addr) : Addr := a &&& 0xFFF000#24

/-- The page base of an address, `a & 0xFFFF00` (R74). -/
def pageBase (a : Addr) : Addr := a &&& 0xFFFF00#24

end Sys2Proof.Machine
end

