-- ==== Sys2Proof/Machine/Device.lean ====
section
/-! DEFINITION. The device of the environment model: what it answers, what it does with the bytes of a frame when the frame ends, and how a program or erase in progress completes (R72 to R77, R171 to R175). A draw `k` is one natural number whose bits supply every value the spec leaves open at that point (log entry 11). -/

namespace Sys2Proof.Machine

/-- `n` received bytes: those given, and a free byte where none is given (R35, 93 item 16). -/
def fitBytes (k n : Nat) (given : List Byte) : List Byte :=
  (List.range n).map (fun i => given.getD i (Config.freeByte k i))

/-- BUSY (R172). -/
def Device.busy (d : Device) : Bool := d.pending.isSome

/-- SR1: bit 0 is BUSY, the rest is opaque (R37). -/
def Device.sr1 (d : Device) : Byte := d.sr1hi ++ BitVec.ofBool d.busy

/-- The opaque status bits after a change of the device's state: any value (93 item 25, log entry 15). -/
def Device.touch (k : Nat) (d : Device) : Device :=
  { d with sr1hi := BitVec.ofNat 7 (k >>> 3), sr2 := BitVec.ofNat 8 (k >>> 10) }

/-- Any value of the five parts R76 gives the device (Mem, WEL, BUSY, SR1[7:1], SR2): the result of an unspecified effect (93 items 30, 31, 32, R175). No RSTEN is outstanding after it; only a received RSTEN makes one (log entry 16). -/
def Device.anyState (k : Nat) : Device where
  array := FlashArray.fillAll (.unknown k)
  wel := k.testBit 0
  pending := if k.testBit 1 then some .unspecified else none
  sr1hi := BitVec.ofNat 7 (k >>> 3)
  sr2 := BitVec.ofNat 8 (k >>> 10)
  armed := false

/-- The range of a program stays inside the device (R62). -/
def rangeInDevice (cfg : Cfg) (a n : Nat) : Bool :=
  decide (a < cfg.flashSize.val) && decide (a + n ≤ cfg.flashSize.val)

/-- The pages a range of `n` bytes from `a` on touches, beyond the first. -/
def extraPages (a n : Nat) : Nat := pageOf (a + n - 1) - pageOf a

/-- The effect of a completed operation on the array. Program: PROGRAM_FN byte by byte inside one page (R165, R77), any value in each page a crossing range touches (R68, 93 item 29), any array where the range leaves the device (R62, 93 item 23). Sector erase: the 4096-byte sector of the address (R167). Chip erase: every byte (R168). -/
def Pending.complete (cfg : Cfg) (k : Nat) (m : FlashArray) : Pending → FlashArray
  | .program a data =>
    if rangeInDevice cfg a.toNat data.length = false then FlashArray.fillAll (.unknown k)
    else if extraPages a.toNat data.length = 0 then m.programBytes a.toNat data
    else m.setPages (pageOf a.toNat) (.unknown k) (extraPages a.toNat data.length + 1)
  | .eraseSector a =>
    if rangeInDevice cfg (sectorBase a).toNat Config.sectorSize = false then FlashArray.fillAll (.unknown k)
    else m.setPages (pageOf (sectorBase a).toNat) .erased (Config.sectorSize / Config.pageSize)
  | .eraseChip => FlashArray.fillAll .erased
  | .unspecified => FlashArray.fillAll (.unknown k)

/-- A busy device makes progress: bit 0 of the draw says whether it has finished (R172, 93 item 28). On completion BUSY returns to 0 with the effect on Mem complete, and WEL is a draw (R174). -/
def Device.progress (cfg : Cfg) (k : Nat) (d : Device) : Device :=
  match d.pending with
  | none => d
  | some p =>
    if k.testBit 0 then
      { d.touch k with array := p.complete cfg k d.array, pending := none, wel := k.testBit 1 }
    else d

/-- WREN: WEL is set (R161); unspecified while BUSY (R173). -/
def Device.onWren (k : Nat) (d : Device) : Device :=
  if d.busy then Device.anyState k else { d.touch k with wel := true }

/-- WRDI: WEL is cleared, in any device state (R162, R173). -/
def Device.onWrdi (k : Nat) (d : Device) : Device := { d.touch k with wel := false }

/-- RDSR1: no change of device state (R163, R72, R173). -/
def Device.onRdsr1 (_ : Nat) (d : Device) : Device := d

/-- RDSR2: no change of device state (R164, R72, R173). -/
def Device.onRdsr2 (_ : Nat) (d : Device) : Device := d

/-- READ: no change of device state (R166, R72); unspecified while BUSY (R173). -/
def Device.onRead (k : Nat) (d : Device) : Device :=
  if d.busy then Device.anyState k else d

/-- A program or erase instruction: accepted only while WEL is set, and then BUSY is 1 (R171, R172); no effect with WEL = 0 (R171); unspecified while BUSY (R173). DESIGN CHOICE (log entry 27): a program or erase addressed at or above FLASH_SIZE, of which the spec says only that it is unspecified (R62), is accepted like any other, with BUSY 1 and WEL kept until it completes. -/
def Device.start (k : Nat) (p : Pending) (d : Device) : Device :=
  if d.busy then Device.anyState k
  else if d.wel then { d.touch k with pending := some p }
  else d

/-- PP (R165). -/
def Device.onPp (k : Nat) (a : Addr) (data : List Byte) (d : Device) : Device := d.start k (.program a data)

/-- SE (R167). -/
def Device.onSe (k : Nat) (a : Addr) (d : Device) : Device := d.start k (.eraseSector a)

/-- CE (R168). -/
def Device.onCe (k : Nat) (d : Device) : Device := d.start k .eraseChip

/-- RSTEN: no effect of its own is stated (R169), but what the device does with its next instruction is open (93 items 31, 32); unspecified while BUSY (R175). -/
def Device.onRsten (k : Nat) (d : Device) : Device :=
  if d.busy then { Device.anyState k with armed := true } else { d.touch k with armed := true }

/-- RST: the effect of a reset on the device is unspecified (R170, R175, 93 item 31). -/
def Device.onRst (k : Nat) (_ : Device) : Device := Device.anyState k

/-- The device's reaction to one wire instruction. Host commands never reach the device. -/
def Device.react (k : Nat) (d : Device) : Instr → Device
  | .wren => d.onWren k
  | .wrdi => d.onWrdi k
  | .rdsr1 => d.onRdsr1 k
  | .rdsr2 => d.onRdsr2 k
  | .pp a data => d.onPp k a data
  | .read _ _ => d.onRead k
  | .se a => d.onSe k a
  | .ce => d.onCe k
  | .rsten => d.onRsten k
  | .rst => d.onRst k
  | .setWriteEnable _ _ => d
  | .setWriteDisable _ _ => d
  | .queryBusy _ _ => d
  | .readStatusSnapshot _ _ => d
  | .eraseSector _ _ => d
  | .eraseChip _ _ => d
  | .programPage _ _ _ => d
  | .readData _ _ => d
  | .resetDevice _ _ => d

/-- The end of a frame whose bytes `wire` reached the device. No byte: no effect. The instruction after an RSTEN may have any effect (93 item 32), and is an outstanding RSTEN itself only if it is one. Bytes that are no whole wire instruction (a prefix of a failed Transmit, R71) have an unspecified effect (log entry 17) and leave an outstanding RSTEN outstanding (log entry 16). -/
def Device.frameEnd (k : Nat) (wire : List Byte) (d : Device) : Device :=
  match wire with
  | [] => d
  | b :: bs =>
    match decodeWire 0 (b :: bs) with
    | .ok (i, []) => if d.armed then { Device.anyState k with armed := decide (i = .rsten) } else d.react k i
    | .ok (_, _ :: _) => { Device.anyState k with armed := d.armed }
    | .error _ => { Device.anyState k with armed := d.armed }

/-- MemRead(a, n) as the device sends it: Mem below FLASH_SIZE, free bytes at or above it (R75, R166, 93 item 23). -/
def Device.readBytes (cfg : Cfg) (k a n : Nat) (d : Device) : List Byte :=
  (List.range n).map (fun i =>
    if a + i < cfg.flashSize.val then d.array.readByte (a + i) else Config.freeByte k i)

/-- The `n` bytes the device sends in the frame of one wire instruction: SR1, SR2 or Mem (R163, R164, R166); free bytes for a READ while BUSY (R173) and for an instruction whose format has no receive part. -/
def Device.sendFor (cfg : Cfg) (k n : Nat) (d : Device) : Instr → List Byte
  | .rdsr1 => fitBytes k n [d.sr1]
  | .rdsr2 => fitBytes k n [d.sr2]
  | .read a _ => if d.busy then fitBytes k n [] else d.readBytes cfg k a.toNat n
  | .wren | .wrdi | .pp _ _ | .se _ | .ce | .rsten | .rst => fitBytes k n []
  | .setWriteEnable _ _ | .setWriteDisable _ _ | .queryBusy _ _ | .readStatusSnapshot _ _ => fitBytes k n []
  | .eraseSector _ _ | .eraseChip _ _ | .programPage _ _ _ | .readData _ _ | .resetDevice _ _ => fitBytes k n []

/-- The `n` bytes the device sends after the bytes `wire` of the frame. After an RSTEN, and for bytes that are no instruction with that receive part, they are free (93 item 32, log entry 17). -/
def Device.send (cfg : Cfg) (k n : Nat) (wire : List Byte) (d : Device) : List Byte :=
  if d.armed then fitBytes k n []
  else
    match decodeFrame wire (some n) with
    | .ok i => d.sendFor cfg k n i
    | .error _ => fitBytes k n []

end Sys2Proof.Machine
end

