-- ==== Sys2Proof/Machine/Transport.lean ====
section
/-! DEFINITION. The transport-and-device agent (R6): what Select, Transmit, Receive and Deselect do outside the block, and what they answer. In oracle mode (`attached = false`) the answers are free and the device is left alone; with the environment model attached the device answers and reacts. -/

namespace Sys2Proof.Machine

/-- One draw of the environment: the next scripted number, else a free value applied to the counter (log entry 11). -/
def World.draw (w : World) : Nat × World :=
  match w.draws with
  | k :: ks => (k, { w with draws := ks, drawCount := w.drawCount + 1 })
  | [] => (Config.freeDraw w.drawCount, { w with drawCount := w.drawCount + 1 })

/-- The transport's next answer: the next scripted one, else a free value applied to the counter (log entry 6). -/
def World.nextAnswer (w : World) : Answer :=
  match w.answers with
  | a :: _ => a
  | [] => Config.freeAnswer w.drawCount

/-- The answer just taken is gone. -/
def World.dropAnswer (w : World) : World :=
  { w with answers := w.answers.tail, drawCount := w.drawCount + 1 }

/-- A chip-select window opens: nothing of the new frame has reached the device. A busy device may have finished by then (log entry 14). -/
def World.select (cfg : Cfg) (w : World) : World :=
  if w.attached && w.dev.busy then
    { w.draw.2 with dev := w.dev.progress cfg w.draw.1, wire := [] }
  else { w with wire := [] }

/-- The result of a Transmit (R34). -/
def World.txResult (w : World) : TxResult :=
  match w.nextAnswer with
  | .ok _ => .ok
  | .err e _ => .err e

/-- The bytes of a Transmit that reach the device: all of them, or a prefix of a failed one (R71, 93 item 17). -/
def World.txReached (tx : List Byte) (w : World) : List Byte :=
  match w.nextAnswer with
  | .ok _ => tx
  | .err _ reached => tx.take reached

/-- A Transmit, outside the block. -/
def World.transmit (tx : List Byte) (w : World) : World :=
  { w.dropAnswer with wire := w.txReached tx }

/-- The result of a Receive of `n` bytes: exactly `n` bytes, or an error (R35). -/
def World.rxResult (cfg : Cfg) (n : Nat) (w : World) : RxResult :=
  match w.nextAnswer with
  | .err e _ => .err e
  | .ok bytes =>
    if w.attached then .ok (w.dev.send cfg w.drawCount n w.wire)
    else .ok (fitBytes w.drawCount n bytes)

/-- A Receive, outside the block: the source names no effect on the device (R72). -/
def World.receive (w : World) : World := w.dropAnswer

/-- The window closes with the bytes `wire` of its frame on the device: the device reacts (R79, R172). -/
def World.frameEnd (wire : List Byte) (w : World) : World :=
  if w.attached && !wire.isEmpty then
    { w.draw.2 with dev := w.dev.frameEnd w.draw.1 wire, wire := [] }
  else { w with wire := [] }

/-- A Deselect, outside the block. -/
def World.deselect (w : World) : World := w.frameEnd w.wire

/-- The window closes early, at a block reset: any prefix of the frame's bytes may have reached the device (R291, 93 item 18, log entry 18). -/
def World.cutShort (w : World) : World :=
  w.draw.2.frameEnd (w.wire.take w.draw.1)

end Sys2Proof.Machine
end

