-- ==== Sys2Proof/Machine/Ops.lean ====
section
/-! DEFINITION. The shared operations of the block: acceptance of a command (R23), the four sub-steps of a frame (R134, R150), storing a result (R137), the poll's decision (R144), advancing (R150), ending an operation with its response (R151, R152, R259: the one exception entry of this hardware), the illegal command (R255), block reset (R290, R291), and the host's reads of a response (R31). There is no return from an exception (R262). -/

namespace Sys2Proof.Machine

/-- The data fields of a response with status OK (R151, R31). -/
def okResponse (b : Block) : Response :=
  match b.op with
  | some .queryBusy => ⟨.ok, none, b.bstate, none, none, none⟩
  | some .readStatusSnapshot => ⟨.ok, none, none, b.sr1, b.sr2, none⟩
  | some .readData => ⟨.ok, none, none, none, none, b.rdata⟩
  | some .setWriteEnable => ⟨.ok, none, none, none, none, none⟩
  | some .setWriteDisable => ⟨.ok, none, none, none, none, none⟩
  | some .eraseSector => ⟨.ok, none, none, none, none, none⟩
  | some .eraseChip => ⟨.ok, none, none, none, none, none⟩
  | some .programPage => ⟨.ok, none, none, none, none, none⟩
  | some .resetDevice => ⟨.ok, none, none, none, none, none⟩
  | none => ⟨.ok, none, none, none, none, none⟩

/-- The response of an operation that ends with an outcome: an abort carries its status, the transport's error value for a transport error, and no data (R152, R259). -/
def responseFor (o : OpOutcome) (b : Block) : Response :=
  match o with
  | .ok => okResponse b
  | .transportError e => ⟨.transportError, some e, none, none, none, none⟩
  | .indeterminate => ⟨.indeterminate, none, none, none, none, none⟩
  | .pollLimit _ => ⟨.pollLimit, none, none, none, none, none⟩

/-- Finish(o): the one way an operation ends, with OK or by an abort; one response, and the block is IDLE (R150, R250 to R254, R259). -/
def finish (o : OpOutcome) (s : State) : State :=
  { s with
    blk := { s.blk with phase := .idle }
    trace := s.trace ++ [.resp (responseFor o s.blk)] }

/-- Advance(): the next micro-operation, or the end of the operation with OK (R150, R24). -/
def advance (c : Current) (s : State) : State :=
  let s' : State := { s with blk := { s.blk with upc := some (c.upc + 1), polls := 0, fstep := some .sel } }
  if c.upc + 1 = c.size then finish .ok s' else s'

/-- Sub-step SEL: Select() (R33, R150). -/
def select (s : State) : State :=
  { s with
    blk := { s.blk with cs := true, fstep := some .tx }
    world := s.world.select s.cfg
    trace := s.trace ++ [.sel] }

/-- Sub-step TX: Transmit(tx), the whole transmit part in one event (R34, R136, R150). -/
def transmit (tx : List Byte) (rx : Option Nat) (s : State) : State :=
  { s with
    blk :=
      match s.world.txResult with
      | .ok => { s.blk with fstep := some (if rx.isSome then .rx else .desel) }
      | .err e => { s.blk with pend := some (.transportError e), fstep := some .desel }
    world := s.world.transmit tx
    trace := s.trace ++ [.tx tx s.world.txResult] }

/-- Sub-step RX: Receive(n), issued for every n (R35, R138, R150). -/
def receive (n : Nat) (s : State) : State :=
  { s with
    blk :=
      match s.world.rxResult s.cfg n with
      | .ok bytes => { s.blk with rxbuf := some bytes, fstep := some .desel }
      | .err e => { s.blk with pend := some (.transportError e), fstep := some .desel }
    world := s.world.receive
    trace := s.trace ++ [.rx n (s.world.rxResult s.cfg n)] }

/-- Deselect(), the event that ends every frame (R33, R134). -/
def deselect (s : State) : State :=
  { s with
    blk := { s.blk with cs := false }
    world := s.world.deselect
    trace := s.trace ++ [.desel] }

/-- Store(dst), after a successful frame (R137). -/
def store (dst : Dst) (b : Block) : Except Fault Block :=
  match dst with
  | .none => .ok b
  | .bq =>
    match b.readRx0 with
    | .ok x => .ok { b with bstate := some (decodeBusy x) }
    | .error f => .error f
  | .sr1 =>
    match b.readRx0 with
    | .ok x => .ok { b with sr1 := some x }
    | .error f => .error f
  | .sr2 =>
    match b.readRx0 with
    | .ok x => .ok { b with sr2 := some x }
    | .error f => .error f
  | .rd =>
    match b.readRx with
    | .ok bs => .ok { b with rdata := some bs }
    | .error f => .error f

/-- POLL_LIMIT is reached after `polls` polls (R145). -/
def limitReached (cfg : Cfg) (polls : Nat) : Option Nat :=
  match cfg.pollLimit with
  | none => none
  | some l => if l ≤ polls then some l else none

/-- What WAIT_IDLE does after a successful poll, with the poll counted: go on, abort, or poll again (R144, R145, R146, R150). -/
def pollDecision (c : Current) (b : BusyState) (s : State) : State :=
  let s' : State := { s with blk := { s.blk with polls := s.blk.polls + 1 } }
  match b with
  | .notBusy => advance c s'
  | .indeterminate => finish .indeterminate s'
  | .busy =>
    match limitReached s.cfg (s.blk.polls + 1) with
    | some l => finish (.pollLimit l) s'
    | none => { s' with blk := { s'.blk with fstep := some .sel } }

/-- Sub-step DESEL: Deselect(), then the pending abort, the poll's decision, or Store and Advance (R134, R135, R150). -/
def endFrame (s : State) : Host.Outcome State Fault Refusal :=
  match s.blk.pend with
  | some o => .next (finish o (deselect s))
  | none =>
    match s.blk.current with
    | .error f => .fault f
    | .ok c =>
      match c.mop with
      | .waitIdle =>
        match s.blk.readRx0 with
        | .error f => .fault f
        | .ok x => .next (pollDecision c (decodeBusy x) (deselect s))
      | .frame _ _ dst =>
        match store dst (deselect s).blk with
        | .error f => .fault f
        | .ok b => .next (advance c { deselect s with blk := b })

/-- The next event of a wire instruction's frame, `tx` its transmit and `rx` its receive part (R134, R150). While no operation runs the block sends nothing (R36, R160). -/
def frameEvent (tx : List Byte) (rx : Option Nat) (s : State) : Host.Outcome State Fault Refusal :=
  match s.blk.phase with
  | .idle => .refused .noOperation
  | .run =>
    match s.blk.fstep with
    | none => .fault (.undefRead .fstep)
    | some .sel => .next (select s)
    | some .tx => .next (transmit tx rx s)
    | some .rx =>
      match rx with
      | none => .fault .noReceivePart
      | some n => .next (receive n s)
    | some .desel => endFrame s

/-- The block's fields on accepting a command (R23); `<undef>` for every field of the operation's results, and for the payload of every operation but programPage. -/
def acceptBlock (op : HostOp) (a : Addr) (len : Nat) (payload : Option (List Byte)) (b : Block) : Block :=
  { b with
    phase := .run
    op := some op
    upc := some 0
    fstep := some .sel
    polls := 0
    pend := none
    addr := some a
    len := some len
    payload := payload
    bstate := none
    sr1 := none
    sr2 := none
    rdata := none
    rxbuf := none }

/-- Acceptance of a command: one atomic transfer `Cmd`, only while `ready = 1` (R23, R30, R296). The command presented is taken. -/
def accept (op : HostOp) (a : Addr) (len : Nat) (payload : Option (List Byte)) (s : State) :
    Host.Outcome State Fault Refusal :=
  match s.blk.phase with
  | .run => .refused .notReady
  | .idle =>
    .next { s with
      blk := acceptBlock op a len payload s.blk
      trace := s.trace ++ [.cmd (cmdWord op a) len (payload.getD [])]
      host := s.host.tail }

/-- The response to a command word that selects no operation (R100, R255). -/
def illegalResponse : Response := ⟨.illegalCommand, none, none, none, none, none⟩

/-- An illegal command: `Cmd` and then `Resp(ILLEGAL_COMMAND)`, no transport event, and the block stays IDLE (R255). -/
def illegalCommand (c : Command) (s : State) : State :=
  { s with
    trace := s.trace ++ [.cmd c.word c.len c.payload, .resp illegalResponse]
    host := s.host.tail }

/-- Block reset: a running operation ends at once without a response, chip select is deasserted if it was asserted (R291), and the block's fields are those of R290; nothing is sent to the device (R292). -/
def blockReset (s : State) : State :=
  { s with
    blk := Block.reset
    world := if s.blk.cs then s.world.cutShort else s.world
    trace := if s.blk.cs then s.trace ++ [.desel] else s.trace
    resetPin := false }

/-- `ready` (R22). -/
def State.ready (s : State) : Bool := decide (s.blk.phase = .idle)

/-- The host reads `terr` of a response (R31, D36). -/
def Response.readTerr (r : Response) : Except Fault TErr :=
  match r.terr with
  | some e => .ok e
  | none => .error (.undefRead .respTerr)

/-- The host reads `busy_state`, as its 2-bit code (R31, R104). -/
def Response.readBusyState (r : Response) : Except Fault (BitVec 2) :=
  match r.busyState with
  | some b => .ok (busyCode b)
  | none => .error (.undefRead .respBusyState)

/-- The host reads `sr1` (R31). -/
def Response.readSr1 (r : Response) : Except Fault Byte :=
  match r.sr1 with
  | some b => .ok b
  | none => .error (.undefRead .respSr1)

/-- The host reads `sr2` (R31). -/
def Response.readSr2 (r : Response) : Except Fault Byte :=
  match r.sr2 with
  | some b => .ok b
  | none => .error (.undefRead .respSr2)

/-- The host reads `rdata` (R31). -/
def Response.readRdata (r : Response) : Except Fault (List Byte) :=
  match r.rdata with
  | some bs => .ok bs
  | none => .error (.undefRead .respRdata)

/-- The host reads `status`, always valid, as its 3-bit code (R31, R103). -/
def Response.readStatus (r : Response) : BitVec 3 := statusCode r.status

end Sys2Proof.Machine
end

