-- ==== Sys2Proof/Machine/HostCommands.lean ====
section
/-! DEFINITION. The meanings of the nine host commands (42_status_wel_ops.md, 43_erase_program_read_reset.md): executing one is its acceptance (R23), after which the block runs its micro-program (R140), one wire instruction's event a step. -/

namespace Sys2Proof.Machine

/-- setWriteEnable, CMD 0x0 (R190). -/
def execSetWriteEnable (a : Addr) (len : Nat) (s : State) : Host.Outcome State Fault Refusal :=
  accept .setWriteEnable a len none s

/-- setWriteDisable, CMD 0x1 (R192). -/
def execSetWriteDisable (a : Addr) (len : Nat) (s : State) : Host.Outcome State Fault Refusal :=
  accept .setWriteDisable a len none s

/-- queryBusy, CMD 0x2 (R194). -/
def execQueryBusy (a : Addr) (len : Nat) (s : State) : Host.Outcome State Fault Refusal :=
  accept .queryBusy a len none s

/-- readStatusSnapshot, CMD 0x3 (R196). -/
def execReadStatusSnapshot (a : Addr) (len : Nat) (s : State) : Host.Outcome State Fault Refusal :=
  accept .readStatusSnapshot a len none s

/-- eraseSector, CMD 0x4 (R220). -/
def execEraseSector (a : Addr) (len : Nat) (s : State) : Host.Outcome State Fault Refusal :=
  accept .eraseSector a len none s

/-- eraseChip, CMD 0x5 (R223). -/
def execEraseChip (a : Addr) (len : Nat) (s : State) : Host.Outcome State Fault Refusal :=
  accept .eraseChip a len none s

/-- programPage, CMD 0x6 (R226); the only operation that takes a payload (R101). -/
def execProgramPage (a : Addr) (len : Nat) (data : List Byte) (s : State) : Host.Outcome State Fault Refusal :=
  accept .programPage a len (some data) s

/-- readData, CMD 0x7 (R230). -/
def execReadData (a : Addr) (len : Nat) (s : State) : Host.Outcome State Fault Refusal :=
  accept .readData a len none s

/-- resetDevice, CMD 0x8 (R234). -/
def execResetDevice (a : Addr) (len : Nat) (s : State) : Host.Outcome State Fault Refusal :=
  accept .resetDevice a len none s

end Sys2Proof.Machine
end

