-- ==== Sys2Proof/Machine/Wire.lean ====
section
/-! DEFINITION. The meanings of the ten wire instructions (41_wire_instructions.md): each is its own frame (R90), run one transport event at a time (R150). The device's side of each is in Machine/Device.lean. -/

namespace Sys2Proof.Machine

/-- WREN (R161). -/
def execWren (s : State) : Host.Outcome State Fault Refusal :=
  frameEvent (txBytes .w0 opcWREN 0 []) none s

/-- WRDI (R162). -/
def execWrdi (s : State) : Host.Outcome State Fault Refusal :=
  frameEvent (txBytes .w0 opcWRDI 0 []) none s

/-- RDSR1 (R163); where the byte goes is the current micro-operation's (R137, R142). -/
def execRdsr1 (s : State) : Host.Outcome State Fault Refusal :=
  frameEvent (txBytes .w1 opcRDSR1 0 []) (some 1) s

/-- RDSR2 (R164). -/
def execRdsr2 (s : State) : Host.Outcome State Fault Refusal :=
  frameEvent (txBytes .w1 opcRDSR2 0 []) (some 1) s

/-- PP (R165): one Transmit of 4 + N bytes. -/
def execPp (a : Addr) (data : List Byte) (s : State) : Host.Outcome State Fault Refusal :=
  frameEvent (txBytes .w3 opcPP a data) none s

/-- READ (R166). -/
def execRead (a : Addr) (len : Nat) (s : State) : Host.Outcome State Fault Refusal :=
  frameEvent (txBytes .w4 opcREAD a []) (some len) s

/-- SE (R167). -/
def execSe (a : Addr) (s : State) : Host.Outcome State Fault Refusal :=
  frameEvent (txBytes .w2 opcSE a []) none s

/-- CE (R168). -/
def execCe (s : State) : Host.Outcome State Fault Refusal :=
  frameEvent (txBytes .w0 opcCE 0 []) none s

/-- RSTEN (R169). -/
def execRsten (s : State) : Host.Outcome State Fault Refusal :=
  frameEvent (txBytes .w0 opcRSTEN 0 []) none s

/-- RST (R170). -/
def execRst (s : State) : Host.Outcome State Fault Refusal :=
  frameEvent (txBytes .w0 opcRST 0 []) none s

end Sys2Proof.Machine
end

