-- ==== Sys2Proof/Machine/Dispatch.lean ====
section
/-! DEFINITION. The dispatch: one arm per constructor of Instr. -/

namespace Sys2Proof.Machine

/-- The meaning of one instruction. -/
def exec (i : Instr) (s : State) : Host.Outcome State Fault Refusal :=
  match i with
  | .wren => Sys2Proof.Machine.execWren s
  | .wrdi => Sys2Proof.Machine.execWrdi s
  | .rdsr1 => Sys2Proof.Machine.execRdsr1 s
  | .rdsr2 => Sys2Proof.Machine.execRdsr2 s
  | .pp a data => Sys2Proof.Machine.execPp a data s
  | .read a len => Sys2Proof.Machine.execRead a len s
  | .se a => Sys2Proof.Machine.execSe a s
  | .ce => Sys2Proof.Machine.execCe s
  | .rsten => Sys2Proof.Machine.execRsten s
  | .rst => Sys2Proof.Machine.execRst s
  | .setWriteEnable a len => Sys2Proof.Machine.execSetWriteEnable a len s
  | .setWriteDisable a len => Sys2Proof.Machine.execSetWriteDisable a len s
  | .queryBusy a len => Sys2Proof.Machine.execQueryBusy a len s
  | .readStatusSnapshot a len => Sys2Proof.Machine.execReadStatusSnapshot a len s
  | .eraseSector a len => Sys2Proof.Machine.execEraseSector a len s
  | .eraseChip a len => Sys2Proof.Machine.execEraseChip a len s
  | .programPage a len data => Sys2Proof.Machine.execProgramPage a len data s
  | .readData a len => Sys2Proof.Machine.execReadData a len s
  | .resetDevice a len => Sys2Proof.Machine.execResetDevice a len s

end Sys2Proof.Machine
end

