-- ==== Sys2Proof/Machine/Fetch.lean ====
section
/-! DEFINITION. What the next step runs: the command the host presents while the block is IDLE, or the wire instruction of the current micro-operation while an operation runs. -/

namespace Sys2Proof.Machine

/-- What the decoder makes of a command the host presents. -/
inductive Offer where
  | instr (i : Instr)
  | illegal
  | unpresentable (r : Refusal)
deriving DecidableEq, Repr

/-- A presented command: an instruction; a word that selects no operation, which the block answers (R100, R255); or a command the host cannot present (R5, R32, R101). -/
def offerOf (cfg : Cfg) (c : Command) : Offer :=
  match decodeCommand cfg c with
  | .ok i => .instr i
  | .error .reservedCmd => .illegal
  | .error .reservedBits => .illegal
  | .error .lenTooWide => .unpresentable .lenTooWide
  | .error .payloadLength => .unpresentable .payloadLength
  | .error .payloadNotTaken => .unpresentable .payloadNotTaken
  | .error .noBytes => .illegal
  | .error (.unknownOpcode _) => .illegal
  | .error .truncatedAddress => .illegal
  | .error .trailingBytes => .illegal
  | .error .wrongReceivePart => .illegal

/-- The state in which the block, in the middle of an operation, is about to send one wire instruction: which micro-operation of which operation that is (R140). -/
def Block.atMicroOp (op : HostOp) (upc : Nat) (b : Block) : Block :=
  { b with
    phase := .run
    op := some op
    upc := some upc
    fstep := some .sel
    cs := false
    addr := some 0
    len := some 0
    payload := some []
    polls := 0
    pend := none }

/-- Where a wire opcode stands in a micro-program (R140); no micro-program sends any other byte 0 (R97). -/
def microOpOf (opc : Byte) : Option (HostOp × Nat) :=
  if opc = opcWREN then some (.setWriteEnable, 1)
  else if opc = opcWRDI then some (.setWriteDisable, 0)
  else if opc = opcRDSR1 then some (.queryBusy, 0)
  else if opc = opcRDSR2 then some (.readStatusSnapshot, 1)
  else if opc = opcPP then some (.programPage, 3)
  else if opc = opcREAD then some (.readData, 1)
  else if opc = opcSE then some (.eraseSector, 3)
  else if opc = opcCE then some (.eraseChip, 3)
  else if opc = opcRSTEN then some (.resetDevice, 0)
  else if opc = opcRST then some (.resetDevice, 1)
  else none

end Sys2Proof.Machine
end

