-- ==== Sys2Proof/Machine/Step.lean ====
section
/-! DEFINITION. One step of the machine: a block reset if its input is asserted, else the acceptance of the command the host presents, or one transport event of the running operation (R150, D1). IDLE with no command presented, the block drives no event (R268). -/

namespace Sys2Proof.Machine

/-- One step. -/
def step (s : State) : Host.Outcome State Fault Refusal :=
  if s.resetPin then .next (blockReset s)
  else
    match s.blk.phase with
    | .idle =>
      match s.host with
      | [] => .next s
      | c :: _ =>
        match offerOf s.cfg c with
        | .instr i => exec i s
        | .illegal => .next (illegalCommand c s)
        | .unpresentable r => .refused r
    | .run =>
      match s.blk.fetch with
      | .ok i => exec i s
      | .error f => .fault f

/-- The state whose next step runs the instruction of a row of spec/opcode_table.json: a 32-bit row is the command the host presents to the IDLE block, with LEN 0 and no payload; an 8-bit row is the wire instruction at which the micro-program of an operation stands, with address 0, LEN 0 and an empty payload. -/
def State.withFetchWord (s : State) (nbits w : Nat) : State :=
  if nbits = 8 then
    match microOpOf (BitVec.ofNat 8 w) with
    | some (op, u) => { s with blk := s.blk.atMicroOp op u, resetPin := false }
    | none => s
  else
    { s with
      blk := { s.blk with phase := .idle }
      host := ⟨BitVec.ofNat 32 w, 0, []⟩ :: s.host
      resetPin := false }

end Sys2Proof.Machine
end

