-- ==== Sys2Proof/Machine/Pseudo.lean ====
section
/-! DEFINITION. The spec's pseudocode of FRAME, POLL, WAIT_IDLE and the nine host operations (R134, R142, R144, R190 to R234), written as it stands there and apart from the step machine of R150, over the same transport and device. R153 says that the two produce the same trace and response. -/

namespace Sys2Proof.Machine

/-- What a run of the pseudocode changes: the transport-and-device agent, and the trace. -/
structure Scene where
  world : World
  trace : List Event
deriving DecidableEq, Repr

/-- How a piece of pseudocode ends: with a value, by `raise`, or still polling when the polls it was allowed are used up (R149: the loop itself has no bound). -/
inductive Run (α : Type) where
  | done (x : α) (p : Scene)
  | raised (o : OpOutcome) (p : Scene)
  | polling (p : Scene)
deriving DecidableEq, Repr

/-- Statements execute in order (R7); a `raise` skips the rest (R152). -/
def Run.andThen {α β : Type} (r : Run α) (f : α → Scene → Run β) : Run β :=
  match r with
  | .done x p => f x p
  | .raised o p => .raised o p
  | .polling p => .polling p

namespace Pseudo

/-- Select() (00_scope.md section 6). -/
def select (cfg : Cfg) (p : Scene) : Scene := ⟨p.world.select cfg, p.trace ++ [.sel]⟩

/-- Deselect(). -/
def deselect (p : Scene) : Scene := ⟨p.world.deselect, p.trace ++ [.desel]⟩

/-- The scene after Transmit(tx). -/
def transmit (tx : List Byte) (p : Scene) : Scene :=
  ⟨p.world.transmit tx, p.trace ++ [.tx tx p.world.txResult]⟩

/-- The scene after Receive(n). -/
def receive (cfg : Cfg) (n : Nat) (p : Scene) : Scene :=
  ⟨p.world.receive, p.trace ++ [.rx n (p.world.rxResult cfg n)]⟩

/-- FRAME(tx, rx, dst), answering the received bytes (R134). -/
def frame (cfg : Cfg) (tx : List Byte) (rx : Option Nat) (p : Scene) : Run (List Byte) :=
  let p1 := select cfg p
  let p2 := transmit tx p1
  match p1.world.txResult with
  | .err e => .raised (.transportError e) (deselect p2)
  | .ok =>
    match rx with
    | none => .done [] (deselect p2)
    | some n =>
      match p2.world.rxResult cfg n with
      | .err e => .raised (.transportError e) (deselect (receive cfg n p2))
      | .ok bytes => .done bytes (deselect (receive cfg n p2))

/-- The one byte of a Receive(1) (R35: exactly one byte arrives). -/
def rx0 (bytes : List Byte) : Byte := bytes.headD 0

/-- POLL() (R142). -/
def poll (cfg : Cfg) (p : Scene) : Run BusyState :=
  (frame cfg [0x05] (some 1) p).andThen fun bytes p' => .done (decodeBusy (rx0 bytes)) p'

/-- WAIT_IDLE() (R144), cut off after `fuel` polls. -/
def waitIdle (cfg : Cfg) : (fuel polls : Nat) → Scene → Run Unit
  | 0, _, p => .polling p
  | fuel + 1, polls, p =>
    (poll cfg p).andThen fun b p' =>
      match b with
      | .notBusy => .done () p'
      | .indeterminate => .raised .indeterminate p'
      | .busy =>
        match limitReached cfg (polls + 1) with
        | some l => .raised (.pollLimit l) p'
        | none => waitIdle cfg fuel (polls + 1) p'

/-- A response with status OK and no data (R151). -/
def okPlain : Response := ⟨.ok, none, none, none, none, none⟩

/-- setWriteEnable() (R190). -/
def setWriteEnable (cfg : Cfg) (fuel : Nat) (p : Scene) : Run Response :=
  (waitIdle cfg fuel 0 p).andThen fun _ p =>
  (frame cfg [0x06] none p).andThen fun _ p => .done okPlain p

/-- setWriteDisable() (R192). -/
def setWriteDisable (cfg : Cfg) (p : Scene) : Run Response :=
  (frame cfg [0x04] none p).andThen fun _ p => .done okPlain p

/-- queryBusy() (R194). -/
def queryBusy (cfg : Cfg) (p : Scene) : Run Response :=
  (frame cfg [0x05] (some 1) p).andThen fun bytes p =>
    .done ⟨.ok, none, some (decodeBusy (rx0 bytes)), none, none, none⟩ p

/-- readStatusSnapshot() (R196). -/
def readStatusSnapshot (cfg : Cfg) (p : Scene) : Run Response :=
  (frame cfg [0x05] (some 1) p).andThen fun b1 p =>
  (frame cfg [0x35] (some 1) p).andThen fun b2 p =>
    .done ⟨.ok, none, none, some (rx0 b1), some (rx0 b2), none⟩ p

/-- The write-enable step, the second wait and the command frame of a write-class operation (R141). -/
def writeClass (cfg : Cfg) (fuel : Nat) (command : List Byte) (p : Scene) : Run Response :=
  (waitIdle cfg fuel 0 p).andThen fun _ p =>
  (frame cfg [0x06] none p).andThen fun _ p =>
  (waitIdle cfg fuel 0 p).andThen fun _ p =>
  (frame cfg command none p).andThen fun _ p => .done okPlain p

/-- eraseSector(A) (R220). -/
def eraseSector (cfg : Cfg) (fuel : Nat) (a : Addr) (p : Scene) : Run Response :=
  writeClass cfg fuel (0x20 :: addrBytes a) p

/-- eraseChip() (R223). -/
def eraseChip (cfg : Cfg) (fuel : Nat) (p : Scene) : Run Response := writeClass cfg fuel [0xC7] p

/-- programPage(A, D, N) (R226). -/
def programPage (cfg : Cfg) (fuel : Nat) (a : Addr) (data : List Byte) (p : Scene) : Run Response :=
  writeClass cfg fuel (0x02 :: addrBytes a ++ data) p

/-- readData(A, N) (R230). -/
def readData (cfg : Cfg) (fuel : Nat) (a : Addr) (n : Nat) (p : Scene) : Run Response :=
  (waitIdle cfg fuel 0 p).andThen fun _ p =>
  (frame cfg (0x03 :: addrBytes a) (some n) p).andThen fun bytes p =>
    .done ⟨.ok, none, none, none, none, some bytes⟩ p

/-- resetDevice() (R234). -/
def resetDevice (cfg : Cfg) (p : Scene) : Run Response :=
  (frame cfg [0x66] none p).andThen fun _ p =>
  (frame cfg [0x99] none p).andThen fun _ p => .done okPlain p

/-- The pseudocode of a host operation. -/
def operation (cfg : Cfg) (fuel : Nat) (op : HostOp) (a : Addr) (n : Nat) (data : List Byte)
    (p : Scene) : Run Response :=
  match op with
  | .setWriteEnable => setWriteEnable cfg fuel p
  | .setWriteDisable => setWriteDisable cfg p
  | .queryBusy => queryBusy cfg p
  | .readStatusSnapshot => readStatusSnapshot cfg p
  | .eraseSector => eraseSector cfg fuel a p
  | .eraseChip => eraseChip cfg fuel p
  | .programPage => programPage cfg fuel a data p
  | .readData => readData cfg fuel a n p
  | .resetDevice => resetDevice cfg p

/-- The response of an abort: its status and, for a transport error, the transport's value (R152, R259). -/
def abortResponse (o : OpOutcome) : Response := ⟨o.status, o.terr, none, none, none, none⟩

/-- The response a finished run delivers, with the scene it leaves; none while it is still polling. -/
def result : Run Response → Option (Response × Scene)
  | .done r p => some (r, p)
  | .raised o p => some (abortResponse o, p)
  | .polling _ => none

end Pseudo
end Sys2Proof.Machine
end

