-- ==== Sys2Proof/Safety.lean ====
section
/-! DEFINITION. The terms claims use: the invariant of the block, the shape of a trace, the guard of the frames that need an idle device, and running several steps. -/

namespace Sys2Proof.Machine

/-- `k` steps. -/
def runSteps (k : Nat) (s : State) : Host.Outcome State Fault Refusal := Host.Core.run Sys2Proof.core k s

/-- In phase RUN, at micro-operation `c` and sub-step `st`: chip select is asserted exactly inside the frame (R25); an abort waits only for the Deselect, and is a transport error (R150); RX is reached only by a frame with a receive part; a successful frame has received exactly the bytes of its receive part (R35); polls are counted only in WAIT_IDLE (R26) and stay below POLL_LIMIT (R145). -/
structure RunInv (cfg : Cfg) (b : Block) (c : Current) (st : FStep) : Prop where
  cs : b.cs = true ↔ st ≠ .sel
  pend : b.pend ≠ none → st = .desel
  pendErr : ∀ o, b.pend = some o → ∃ e, o = .transportError e
  rx : st = .rx → c.mop.rx ≠ none
  received : ∀ n, st = .desel → b.pend = none → c.mop.rx = some n →
    ∃ bs, b.rxbuf = some bs ∧ bs.length = n
  polls : c.mop ≠ .waitIdle → b.polls = 0
  limit : ∀ l, cfg.pollLimit = some l → b.polls < l

/-- The block's invariant (R24, R25). IDLE: chip select deasserted. RUN: every field the running operation reads holds a value, upc is inside the micro-program, and the frame is in order. -/
def Block.Inv (cfg : Cfg) (b : Block) : Prop :=
  match b.phase with
  | .idle => b.cs = false
  | .run => ∃ c st, b.current = .ok c ∧ b.fstep = some st ∧ RunInv cfg b c st

/-- The invariant of the machine: the parameters are legal, the device array is in canonical form, and the block's invariant holds. -/
structure State.Inv (s : State) : Prop where
  cfg : s.cfg.wf = true
  array : s.world.dev.array.wf = true
  blk : s.blk.Inv s.cfg

/-- Where a trace stands in a chip-select window: outside, opened, after its one Transmit, after its Receive. -/
inductive Window where
  | out
  | opened
  | sent
  | received
deriving DecidableEq, Repr

/-- One event in a window; none if the event may not stand there (R71, R90, R136, R138, R139). A Deselect right after the Select happens only at a block reset (R291). -/
def Window.next : Window → Event → Option Window
  | .out, .cmd _ _ _ => some .out
  | .out, .resp _ => some .out
  | .out, .sel => some .opened
  | .opened, .tx _ _ => some .sent
  | .opened, .desel => some .out
  | .sent, .rx _ _ => some .received
  | .sent, .desel => some .out
  | .received, .desel => some .out
  | _, _ => none

/-- Where a whole trace leaves off; none if it is not framed. -/
def windowFrom (w : Window) : List Event → Option Window
  | [] => some w
  | e :: t =>
    match w.next e with
    | none => none
    | some w' => windowFrom w' t

/-- The trace is framed, and leaves off where the block's sub-step says (R25, R36, R71, R139). -/
def State.Framed (s : State) : Prop :=
  match s.blk.phase with
  | .idle => windowFrom .out s.trace = some .out
  | .run =>
    match s.blk.fstep with
    | none => False
    | some .sel => windowFrom .out s.trace = some .out
    | some .tx => windowFrom .out s.trace = some .opened
    | some .rx => windowFrom .out s.trace = some .sent
    | some .desel => windowFrom .out s.trace = some .sent ∨ windowFrom .out s.trace = some .received

/-- The opcodes that are sent only to a device that has just answered a poll with NotBusy (R173). -/
def needsIdle (opc : Byte) : Bool :=
  opc == opcWREN || opc == opcPP || opc == opcREAD || opc == opcSE || opc == opcCE

/-- The newest events, newest first, are the Select of a frame that directly follows a poll answering NotBusy. -/
def afterIdlePoll : List Event → Bool
  | .sel :: .desel :: .rx 1 (.ok [b]) :: .tx [op] .ok :: _ => decide (b &&& 0x01 = 0x00) && decide (op = opcRDSR1)
  | _ => false

/-- In a trace, newest event first, every frame whose opcode needs an idle device directly follows a poll answering NotBusy (R173, R161). -/
def guardedRev : List Event → Bool
  | [] => true
  | .tx (opc :: _) _ :: t => (!needsIdle opc || afterIdlePoll t) && guardedRev t
  | _ :: t => guardedRev t

/-- The current micro-operation's frame may be sent: its opcode needs no idle device, or the last poll said NotBusy. -/
def mayOpen (m : MicroOp) (revTrace : List Event) : Bool :=
  match m.tx with
  | [] => true
  | opc :: _ => !needsIdle opc || afterIdlePoll revTrace

/-- The guard of R173 as a property of a state: it holds of the trace, and of the frame about to be sent. -/
def State.Guarded (s : State) : Prop :=
  guardedRev s.trace.reverse = true ∧
  (s.blk.phase = .run → ∀ c, s.blk.current = .ok c →
    (s.blk.fstep = some .sel → mayOpen c.mop (.sel :: s.trace.reverse) = true) ∧
    (s.blk.fstep = some .tx → mayOpen c.mop s.trace.reverse = true) ∧
    (s.blk.fstep = some .rx → c.mop = .waitIdle → ∃ t, s.trace.reverse = .tx [opcRDSR1] .ok :: t) ∧
    (s.blk.fstep = some .desel → s.blk.pend = none → c.mop = .waitIdle →
      ∃ bs t, s.blk.rxbuf = some bs ∧ s.trace.reverse = .rx 1 (.ok bs) :: .tx [opcRDSR1] .ok :: t))

/-- How many commands a trace accepts. -/
def cmdCount : List Event → Nat
  | [] => 0
  | .cmd _ _ _ :: t => cmdCount t + 1
  | _ :: t => cmdCount t

/-- How many responses a trace delivers. -/
def respCount : List Event → Nat
  | [] => 0
  | .resp _ :: t => respCount t + 1
  | _ :: t => respCount t

/-- Responses owed in a phase: one while an operation runs (R30). -/
def Phase.owed : Phase → Nat
  | .idle => 0
  | .run => 1

/-- The events of a poll frame that answers byte `b` (R106). -/
def pollEvents (b : Byte) : List Event := [.sel, .tx [0x05] .ok, .rx 1 (.ok [b]), .desel]

/-- The poll frames of a list of answered bytes, in order. -/
def pollsEvents : List Byte → List Event
  | [] => []
  | b :: t => pollEvents b ++ pollsEvents t

/-- The events of a successful frame without a receive part (R106). -/
def sentEvents (tx : List Byte) : List Event := [.sel, .tx tx .ok, .desel]

/-- Transport answers that make every poll succeed with the given bytes: two a poll. -/
def pollAnswers : List Byte → List Answer
  | [] => []
  | b :: t => .ok [] :: .ok [b] :: pollAnswers t

/-- A status byte that says busy (R143). -/
def saysBusy (b : Byte) : Prop := b &&& 0x01 = 0x01

/-- A status byte that says not busy (R143). -/
def saysIdle (b : Byte) : Prop := b &&& 0x01 = 0x00

end Sys2Proof.Machine
end

