-- ==== Sys2Proof/Certificates/Slice0/Obligations.lean ====
section
/-! DEFINITION. The statements for the provers. Each cites the rule of spec/ it formalises; OBLIGATIONS.json lists them. -/

open Sys2Proof Sys2Proof.Machine

/-! ## Terms of the statements -/

namespace Sys2Proof.Claims

/-- `t` differs from `s` at most in the block, the environment and the trace: the host's commands, the reset input and the parameters stay. -/
def SamePorts (s t : State) : Prop := t.host = s.host ∧ t.resetPin = s.resetPin ∧ t.cfg = s.cfg

/-- The operation and its operands stay. -/
def SameOperands (b b' : Block) : Prop :=
  b'.op = b.op ∧ b'.addr = b.addr ∧ b'.len = b.len ∧ b'.payload = b.payload

/-- The result fields stay. -/
def SameResults (b b' : Block) : Prop :=
  b'.bstate = b.bstate ∧ b'.sr1 = b.sr1 ∧ b'.sr2 = b.sr2 ∧ b'.rdata = b.rdata

/-- Rule R23, field by field: what accepting a command writes, and that chip select, the environment, the reset input and the parameters stay. -/
structure Accepted (o : HostOp) (a : Addr) (n : Nat) (pl : Option (List Byte)) (s t : State) : Prop where
  phase : t.blk.phase = .run
  op : t.blk.op = some o
  upc : t.blk.upc = some 0
  fstep : t.blk.fstep = some .sel
  polls : t.blk.polls = 0
  pend : t.blk.pend = none
  addr : t.blk.addr = some a
  len : t.blk.len = some n
  payload : t.blk.payload = pl
  results : t.blk.bstate = none ∧ t.blk.sr1 = none ∧ t.blk.sr2 = none ∧ t.blk.rdata = none ∧ t.blk.rxbuf = none
  cs : t.blk.cs = s.blk.cs
  trace : t.trace = s.trace ++ [.cmd (cmdWord o a) n (pl.getD [])]
  host : t.host = s.host.tail
  world : t.world = s.world
  pin : t.resetPin = s.resetPin
  cfg : t.cfg = s.cfg

/-- The seven wire instructions whose frame has no receive part. -/
def Sends (i : Instr) : Prop :=
  i = .wren ∨ i = .wrdi ∨ (∃ a d, i = .pp a d) ∨ (∃ a, i = .se a) ∨ i = .ce ∨ i = .rsten ∨ i = .rst

/-- The three wire instructions whose frame has a receive part. -/
def Receives (i : Instr) : Prop := i = .rdsr1 ∨ i = .rdsr2 ∨ ∃ a n, i = .read a n

/-- The ten wire instructions. -/
def IsWire (i : Instr) : Prop := Sends i ∨ Receives i

/-- What an operation with the current micro-operation behind it does next: it goes on, or it ends with OK (R150, Advance). -/
def Advanced (c : Current) (t : State) : Prop :=
  t.blk.upc = some (c.upc + 1) ∧ t.blk.fstep = some .sel ∧ t.blk.polls = 0 ∧ t.blk.cs = false ∧
  (t.blk.phase = .idle ↔ c.upc + 1 = c.size)

/-- The response events of an operation that may just have ended with OK. -/
def okEvents (c : Current) (b : Block) : List Event :=
  if c.upc + 1 = c.size then [.resp (okResponse b)] else []

/-- The five operations that contain a WAIT_IDLE (R256). -/
def Waits (op : HostOp) : Prop :=
  op = .setWriteEnable ∨ op = .eraseSector ∨ op = .eraseChip ∨ op = .programPage ∨ op = .readData

/-- An operation has just been accepted by a block whose environment is the oracle, with no reset asserted: the start of a run. -/
structure Started (op : HostOp) (a : Addr) (n : Nat) (payload : Option (List Byte)) (s t : State) : Prop where
  accepted : Accepted op a n payload s t
  oracle : s.world.attached = false
  noReset : s.resetPin = false
  cs : s.blk.cs = false

/-- A run of `k` steps from `s0` ends in an IDLE block, having added `events` to the trace and used up the scripted answers but for `rest`. -/
def EndsWith (k : Nat) (s0 : State) (events : List Event) (rest : List Answer) : Prop :=
  ∃ t, runSteps k s0 = .next t ∧ t.blk.phase = .idle ∧ t.blk.cs = false ∧
    t.trace = s0.trace ++ events ∧ t.world.answers = rest ∧ SamePorts s0 t

/-- The device is idle, has no RSTEN outstanding, and the environment model is attached. -/
def ReadyDevice (w : World) : Prop := w.attached = true ∧ w.dev.pending = none ∧ w.dev.armed = false

end Sys2Proof.Claims

open Sys2Proof.Claims

/-! ## Encoding -/

/-- R95 and R99: the ten opcodes and the nine CMD codes decode to their instructions. -/
def Obligations.SpecWordsDecode : Prop :=
  (decodeFrame [0x06] none = .ok .wren ∧ decodeFrame [0x04] none = .ok .wrdi ∧
   decodeFrame [0x05] (some 1) = .ok .rdsr1 ∧ decodeFrame [0x35] (some 1) = .ok .rdsr2 ∧
   decodeFrame [0x02, 0x12, 0x34, 0x56, 0x5A] none = .ok (.pp 0x123456 [0x5A]) ∧
   decodeFrame [0x03, 0x00, 0x01, 0x00] (some 3) = .ok (.read 0x000100 3) ∧
   decodeFrame [0x20, 0x01, 0x23, 0x45] none = .ok (.se 0x012345) ∧
   decodeFrame [0xC7] none = .ok .ce ∧ decodeFrame [0x66] none = .ok .rsten ∧ decodeFrame [0x99] none = .ok .rst) ∧
  (decodeCommand Cfg.default ⟨0x00ABCDEF, 7, []⟩ = .ok (.setWriteEnable 0xABCDEF 7) ∧
   decodeCommand Cfg.default ⟨0x10000000, 0, []⟩ = .ok (.setWriteDisable 0 0) ∧
   decodeCommand Cfg.default ⟨0x20000000, 0, []⟩ = .ok (.queryBusy 0 0) ∧
   decodeCommand Cfg.default ⟨0x30000000, 0, []⟩ = .ok (.readStatusSnapshot 0 0) ∧
   decodeCommand Cfg.default ⟨0x40012345, 0, []⟩ = .ok (.eraseSector 0x012345 0) ∧
   decodeCommand Cfg.default ⟨0x50000000, 0, []⟩ = .ok (.eraseChip 0 0) ∧
   decodeCommand Cfg.default ⟨0x60001000, 2, [0xAA, 0xAB]⟩ = .ok (.programPage 0x001000 2 [0xAA, 0xAB]) ∧
   decodeCommand Cfg.default ⟨0x70000100, 3, []⟩ = .ok (.readData 0x000100 3) ∧
   decodeCommand Cfg.default ⟨0x80000000, 0, []⟩ = .ok (.resetDevice 0 0))

/-- Every well-formed instruction, with every operand, is what decoding its encoding gives. -/
def Obligations.DecodeOfEncodeIsTheInstruction : Prop :=
  ∀ (cfg : Cfg) (i : Instr), i.wf cfg = true → decode cfg (encode i) = .ok i

/-- A frame that decodes to an instruction is that instruction's frame: no two frames mean one instruction. -/
def Obligations.FrameIsTheEncodingOfItsInstruction : Prop :=
  ∀ (tx : List Byte) (rx : Option Nat) (i : Instr), decodeFrame tx rx = .ok i → encode i = .frame tx rx

/-- A command that decodes to an instruction is that instruction's command, and the instruction is well formed. -/
def Obligations.CommandIsTheEncodingOfItsInstruction : Prop :=
  ∀ (cfg : Cfg) (c : Command) (i : Instr), decodeCommand cfg c = .ok i → encode i = .command c ∧ i.wf cfg = true

/-- R130 and R131: the address encoder is big-endian, in both of the forms R130 gives, and its bytes give the address back. -/
def Obligations.AddressBytesAreBigEndianAndRoundTrip : Prop :=
  ∀ a : Addr,
    addrBytes a = [a.extractLsb' 16 8, a.extractLsb' 8 8, a.extractLsb' 0 8] ∧
    addrBytes a = [((a >>> 16) &&& 0xFF#24).setWidth 8, ((a >>> 8) &&& 0xFF#24).setWidth 8, (a &&& 0xFF#24).setWidth 8] ∧
    addrOfBytes (a.extractLsb' 16 8) (a.extractLsb' 8 8) (a.extractLsb' 0 8) = a

/-- R96: the transmit and receive lengths of every wire instruction's frame follow from byte 0 and the length alone. -/
def Obligations.FrameLengthsFollowFromTheOpcode : Prop :=
  ∀ (i : Instr) (tx : List Byte) (rx : Option Nat), encode i = .frame tx rx →
    ∃ opc rest, tx = opc :: rest ∧
      ((opc = 0x06 ∨ opc = 0x04 ∨ opc = 0xC7 ∨ opc = 0x66 ∨ opc = 0x99) → tx.length = 1 ∧ rx = none) ∧
      ((opc = 0x05 ∨ opc = 0x35) → tx.length = 1 ∧ rx = some 1) ∧
      (opc = 0x20 → tx.length = 4 ∧ rx = none) ∧
      (opc = 0x02 → ∃ a d, i = .pp a d ∧ tx.length = 4 + d.length ∧ rx = none) ∧
      (opc = 0x03 → ∃ a n, i = .read a n ∧ tx.length = 4 ∧ rx = some n)

/-- R28 and R143: the decode of every status byte by its bit 0, and Indeterminate is never the result. -/
def Obligations.BusyDecodeReadsBitZero : Prop :=
  ∀ b : Byte,
    (decodeBusy b = .notBusy ↔ b.getLsbD 0 = false) ∧ (decodeBusy b = .busy ↔ b.getLsbD 0 = true) ∧
    decodeBusy b ≠ .indeterminate

/-- R103 and R104: the codes of status and busy_state, and the codes no response carries. -/
def Obligations.ResponseCodes : Prop :=
  (statusCode .ok = 0 ∧ statusCode .transportError = 1 ∧ statusCode .indeterminate = 2 ∧
   statusCode .pollLimit = 3 ∧ statusCode .illegalCommand = 4 ∧ ∀ st, (statusCode st).toNat < 5) ∧
  (busyCode .notBusy = 0b00 ∧ busyCode .busy = 0b01 ∧ busyCode .indeterminate = 0b10 ∧ (∀ b, busyCode b ≠ 0b11) ∧
   ∀ b : Byte, busyCode (decodeBusy b) ≠ 0b10)

/-! ## Reset and one step -/

/-- R290: the block after reset. -/
def Obligations.ResetStateOfTheBlock : Prop :=
  State.reset.blk.phase = .idle ∧ State.reset.ready = true ∧ State.reset.blk.cs = false ∧
  State.reset.blk.polls = 0 ∧ State.reset.blk.pend = none ∧
  State.reset.blk.op = none ∧ State.reset.blk.upc = none ∧ State.reset.blk.fstep = none ∧
  State.reset.blk.addr = none ∧ State.reset.blk.len = none ∧ State.reset.blk.payload = none ∧
  State.reset.blk.rxbuf = none ∧ State.reset.blk.bstate = none ∧ State.reset.blk.sr1 = none ∧
  State.reset.blk.sr2 = none ∧ State.reset.blk.rdata = none ∧ State.reset.blk.phase.owed = 0

/-- R268: IDLE with no command presented, nothing happens. -/
def Obligations.IdleDrivesNoEvent : Prop :=
  ∀ s : State, s.resetPin = false → s.blk.phase = .idle → s.host = [] → step s = .next s

/-- A step of an IDLE block executes the command the host presents. -/
def Obligations.StepRunsThePresentedCommand : Prop :=
  ∀ (s : State) (c : Command) (rest : List Command) (i : Instr),
    s.resetPin = false → s.blk.phase = .idle → s.host = c :: rest → decodeCommand s.cfg c = .ok i →
    step s = exec i s

/-- A step of a running block executes the wire instruction that the frame of its current micro-operation decodes to. -/
def Obligations.StepRunsTheFetchedWireInstruction : Prop :=
  ∀ (s : State) (c : Current) (i : Instr),
    s.resetPin = false → s.blk.phase = .run → s.blk.current = .ok c → decodeFrame c.mop.tx c.mop.rx = .ok i →
    step s = exec i s

/-- R100 and R255: an illegal word is answered with ILLEGAL_COMMAND and no transport event, and nothing else changes. That it is answered whatever its payload, and only if its LEN fits, is the model's order of checks (log entry 20); that the answered command leaves the host's list is log entry 4. -/
def Obligations.IllegalWordIsAnswered : Prop :=
  ∀ (s : State) (c : Command) (rest : List Command),
    s.resetPin = false → s.blk.phase = .idle → s.host = c :: rest → c.len < 2 ^ s.cfg.lenBits →
    (9 ≤ (c.word.extractLsb' 28 4).toNat ∨ c.word.extractLsb' 24 4 ≠ 0) →
    step s = .next { s with
      trace := s.trace ++ [.cmd c.word c.len c.payload, .resp ⟨.illegalCommand, none, none, none, none, none⟩]
      host := rest }

/-- R32, R101 and R5: the commands a host cannot present are refused by name. -/
def Obligations.UnpresentableCommandIsRefused : Prop :=
  ∀ (s : State) (c : Command) (rest : List Command),
    s.resetPin = false → s.blk.phase = .idle → s.host = c :: rest →
    (2 ^ s.cfg.lenBits ≤ c.len → step s = .refused .lenTooWide) ∧
    (c.len < 2 ^ s.cfg.lenBits → c.word.extractLsb' 24 4 = 0 →
      ((c.word.extractLsb' 28 4 = 6 ∧ c.payload.length ≠ c.len → step s = .refused .payloadLength) ∧
       ((c.word.extractLsb' 28 4).toNat < 9 ∧ c.word.extractLsb' 28 4 ≠ 6 ∧ c.payload ≠ [] →
         step s = .refused .payloadNotTaken)))

/-- R290 to R292: a block reset. The block's fields are those of reset; a running frame is deselected; no response is delivered; nothing is transmitted; outside a frame the environment is untouched. Model's choices: the reset input (log entry 5), and that inside a frame the device has at most received a prefix of that frame, as the end of a frame treats it (log entries 17 and 18). -/
def Obligations.BlockResetEndsTheOperation : Prop :=
  ∀ s : State, s.resetPin = true →
    ∃ t, step s = .next t ∧ t.blk = State.reset.blk ∧
      t.trace = s.trace ++ (if s.blk.cs then [.desel] else []) ∧
      (s.blk.cs = false → t.world = s.world) ∧ t.world.answers = s.world.answers ∧
      (∃ j k, t.world.dev = s.world.dev.frameEnd k (s.world.wire.take j)) ∧
      t.host = s.host ∧ t.cfg = s.cfg ∧ t.resetPin = false

/-! ## Host commands: acceptance -/

/-- R23: each of the nine host commands is accepted by an IDLE block. -/
def Obligations.HostCommandsAreAccepted : Prop :=
  ∀ (s : State) (a : Addr) (n : Nat) (d : List Byte), s.blk.phase = .idle →
    (∃ t, exec (.setWriteEnable a n) s = .next t ∧ Accepted .setWriteEnable a n none s t) ∧
    (∃ t, exec (.setWriteDisable a n) s = .next t ∧ Accepted .setWriteDisable a n none s t) ∧
    (∃ t, exec (.queryBusy a n) s = .next t ∧ Accepted .queryBusy a n none s t) ∧
    (∃ t, exec (.readStatusSnapshot a n) s = .next t ∧ Accepted .readStatusSnapshot a n none s t) ∧
    (∃ t, exec (.eraseSector a n) s = .next t ∧ Accepted .eraseSector a n none s t) ∧
    (∃ t, exec (.eraseChip a n) s = .next t ∧ Accepted .eraseChip a n none s t) ∧
    (∃ t, exec (.programPage a n d) s = .next t ∧ Accepted .programPage a n (some d) s t) ∧
    (∃ t, exec (.readData a n) s = .next t ∧ Accepted .readData a n none s t) ∧
    (∃ t, exec (.resetDevice a n) s = .next t ∧ Accepted .resetDevice a n none s t)

/-- R296: while an operation runs, no command is accepted, and the host's commands wait. -/
def Obligations.NoCommandWhileRunning : Prop :=
  ∀ s : State, s.blk.phase = .run →
    (∀ i, i.hostOp? ≠ none → exec i s = .refused .notReady) ∧
    (∀ t, step s = .next t → t.host = s.host)

/-- R1: what an operation left behind does not influence the next one: two IDLE blocks with chip select deasserted and the same surroundings accept a command into the same state. -/
def Obligations.NothingCarriesOverBetweenOperations : Prop :=
  ∀ (s1 s2 : State) (i : Instr), i.hostOp? ≠ none →
    s1.blk.phase = .idle → s2.blk.phase = .idle → s1.blk.cs = s2.blk.cs →
    s1.world = s2.world → s1.trace = s2.trace → s1.host = s2.host → s1.resetPin = s2.resetPin → s1.cfg = s2.cfg →
    exec i s1 = exec i s2

/-! ## Wire instructions: their frames -/

/-- R134 and R150: a frame without a receive part (WREN, WRDI, PP, SE, CE, RSTEN, RST) runs Select, one Transmit of the whole transmit part, Deselect; it stores nothing and the operation advances. Every field of the block it may not write stays. -/
def Obligations.SendFrameCompletes : Prop :=
  ∀ (i : Instr) (s : State) (tx : List Byte) (c : Current),
    Sends i → encode i = .frame tx none →
    s.blk.phase = .run → s.blk.fstep = some .sel → s.blk.pend = none →
    s.blk.current = .ok c → c.mop = .frame tx none .none →
    (s.world.select s.cfg).txResult = .ok →
    ∃ s1 s2 t, exec i s = .next s1 ∧ exec i s1 = .next s2 ∧ exec i s2 = .next t ∧
      s1.blk.cs = true ∧ s2.blk.cs = true ∧ Advanced c t ∧
      t.trace = s.trace ++ [.sel, .tx tx .ok, .desel] ++ okEvents c s.blk ∧
      t.world = ((s.world.select s.cfg).transmit tx).deselect ∧
      t.blk.pend = none ∧ t.blk.rxbuf = s.blk.rxbuf ∧
      SameOperands s.blk t.blk ∧ SameResults s.blk t.blk ∧ SamePorts s t

/-- R134, R137 and R150: a frame with a receive part (RDSR1, RDSR2, READ) runs Select, Transmit, Receive, Deselect; the received bytes go to the frame's destination and to no other field. -/
def Obligations.ReceiveFrameCompletes : Prop :=
  ∀ (i : Instr) (s : State) (tx : List Byte) (n : Nat) (dst : Dst) (c : Current) (bs : List Byte),
    Receives i → encode i = .frame tx (some n) →
    s.blk.phase = .run → s.blk.fstep = some .sel → s.blk.pend = none →
    s.blk.current = .ok c → c.mop = .frame tx (some n) dst → (dst = .rd ∨ n = 1) →
    (s.world.select s.cfg).txResult = .ok →
    ((s.world.select s.cfg).transmit tx).rxResult s.cfg n = .ok bs →
    ∃ s1 s2 s3 t, exec i s = .next s1 ∧ exec i s1 = .next s2 ∧ exec i s2 = .next s3 ∧ exec i s3 = .next t ∧
      s1.blk.cs = true ∧ s2.blk.cs = true ∧ s3.blk.cs = true ∧ Advanced c t ∧
      t.trace = s.trace ++ [.sel, .tx tx .ok, .rx n (.ok bs), .desel] ++ okEvents c t.blk ∧
      t.world = ((s.world.select s.cfg).transmit tx).receive.deselect ∧
      t.blk.pend = none ∧ t.blk.rxbuf = some bs ∧
      t.blk.bstate = (if dst = .bq then bs.head?.map decodeBusy else s.blk.bstate) ∧
      t.blk.sr1 = (if dst = .sr1 then bs.head? else s.blk.sr1) ∧
      t.blk.sr2 = (if dst = .sr2 then bs.head? else s.blk.sr2) ∧
      t.blk.rdata = (if dst = .rd then some bs else s.blk.rdata) ∧
      SameOperands s.blk t.blk ∧ SamePorts s t

/-- R144 to R146 and R150: a poll of WAIT_IDLE is one RDSR1 frame; its byte decides: NotBusy advances, Busy polls again or, at POLL_LIMIT, aborts. No other field is written. -/
def Obligations.PollFrameDecidesTheWait : Prop :=
  ∀ (s : State) (c : Current) (b : Byte),
    s.blk.phase = .run → s.blk.fstep = some .sel → s.blk.pend = none →
    s.blk.current = .ok c → c.mop = .waitIdle →
    (s.world.select s.cfg).txResult = .ok →
    ((s.world.select s.cfg).transmit [0x05]).rxResult s.cfg 1 = .ok [b] →
    ∃ s1 s2 s3 t, exec .rdsr1 s = .next s1 ∧ exec .rdsr1 s1 = .next s2 ∧ exec .rdsr1 s2 = .next s3 ∧
      exec .rdsr1 s3 = .next t ∧
      t.world = ((s.world.select s.cfg).transmit [0x05]).receive.deselect ∧
      t.blk.cs = false ∧ t.blk.pend = none ∧ t.blk.rxbuf = some [b] ∧
      SameOperands s.blk t.blk ∧ SameResults s.blk t.blk ∧ SamePorts s t ∧
      (b.getLsbD 0 = false → Advanced c t ∧ t.trace = s.trace ++ pollEvents b ++ okEvents c s.blk) ∧
      (b.getLsbD 0 = true → (∀ l, s.cfg.pollLimit = some l → s.blk.polls + 1 < l) →
        t.blk.phase = .run ∧ t.blk.upc = s.blk.upc ∧ t.blk.fstep = some .sel ∧ t.blk.polls = s.blk.polls + 1 ∧
        t.trace = s.trace ++ pollEvents b) ∧
      (∀ l, b.getLsbD 0 = true → s.cfg.pollLimit = some l → l ≤ s.blk.polls + 1 →
        t.blk.phase = .idle ∧ t.blk.upc = s.blk.upc ∧
        t.trace = s.trace ++ pollEvents b ++ [.resp ⟨.pollLimit, none, none, none, none, none⟩])

/-- R135, R251, R252 and R259: a failed Transmit of any wire instruction is followed by the Deselect and a response with the transport's value; no Receive is issued, and no operand or result field changes. -/
def Obligations.TransmitErrorAborts : Prop :=
  ∀ (i : Instr) (s : State) (tx : List Byte) (rx : Option Nat) (e : TErr),
    IsWire i → encode i = .frame tx rx →
    s.blk.phase = .run → s.blk.fstep = some .tx → s.world.txResult = .err e →
    ∃ s1 t, exec i s = .next s1 ∧ exec i s1 = .next t ∧
      t.blk.phase = .idle ∧ t.blk.cs = false ∧ t.blk.upc = s.blk.upc ∧
      t.trace = s.trace ++ [.tx tx (.err e), .desel, .resp ⟨.transportError, some e, none, none, none, none⟩] ∧
      t.world = (s.world.transmit tx).deselect ∧
      SameOperands s.blk t.blk ∧ SameResults s.blk t.blk ∧ t.blk.rxbuf = s.blk.rxbuf ∧ SamePorts s t

/-- R35, R135, R251 and R259: a failed Receive likewise; no received byte reaches any field. -/
def Obligations.ReceiveErrorAborts : Prop :=
  ∀ (i : Instr) (s : State) (tx : List Byte) (n : Nat) (e : TErr),
    Receives i → encode i = .frame tx (some n) →
    s.blk.phase = .run → s.blk.fstep = some .rx → s.world.rxResult s.cfg n = .err e →
    ∃ s1 t, exec i s = .next s1 ∧ exec i s1 = .next t ∧
      t.blk.phase = .idle ∧ t.blk.cs = false ∧ t.blk.upc = s.blk.upc ∧
      t.trace = s.trace ++ [.rx n (.err e), .desel, .resp ⟨.transportError, some e, none, none, none, none⟩] ∧
      t.world = s.world.receive.deselect ∧
      SameOperands s.blk t.blk ∧ SameResults s.blk t.blk ∧ t.blk.rxbuf = s.blk.rxbuf ∧ SamePorts s t

/-- R36 and R160: while IDLE the block sends no wire instruction. -/
def Obligations.NoWireInstructionWhileIdle : Prop :=
  ∀ (i : Instr) (s : State), IsWire i → s.blk.phase = .idle → exec i s = .refused .noOperation

/-! ## Whole operations, oracle mode -/

/-- R190 and R191: K Busy polls, one NotBusy poll, then WREN; 4(K+1) + 3 events. -/
def Obligations.SetWriteEnableRun : Prop :=
  ∀ (s s0 : State) (a : Addr) (n : Nat) (bs : List Byte) (b : Byte) (x : List Byte) (rest : List Answer),
    Started .setWriteEnable a n none s s0 →
    (∀ l, s.cfg.pollLimit = some l → bs.length + 1 ≤ l) →
    (∀ y ∈ bs, saysBusy y) → saysIdle b →
    s.world.answers = pollAnswers bs ++ pollAnswers [b] ++ .ok x :: rest →
    EndsWith (4 * (bs.length + 1) + 3) s0
      (pollsEvents bs ++ pollEvents b ++ sentEvents [0x06] ++ [.resp ⟨.ok, none, none, none, none, none⟩]) rest

/-- R193: Sel, Tx[04], Desel and the response, whatever the Transmit answers and whatever the device is doing. -/
def Obligations.SetWriteDisableRun : Prop :=
  ∀ (s s0 : State) (a : Addr) (n : Nat) (ans : Answer) (rest : List Answer),
    Accepted .setWriteDisable a n none s s0 → s.resetPin = false → s.blk.cs = false → s.world.answers = ans :: rest →
    EndsWith 3 s0
      (match ans with
        | .ok _ => sentEvents [0x04] ++ [.resp ⟨.ok, none, none, none, none, none⟩]
        | .err e _ => [.sel, .tx [0x04] (.err e), .desel, .resp ⟨.transportError, some e, none, none, none, none⟩])
      rest

/-- R194 and R195: one RDSR1 frame, never a wait, and busy_state is the decode of the received byte. -/
def Obligations.QueryBusyRun : Prop :=
  ∀ (s s0 : State) (a : Addr) (n : Nat) (x : List Byte) (b : Byte) (rest : List Answer),
    Started .queryBusy a n none s s0 → s.world.answers = .ok x :: .ok [b] :: rest →
    EndsWith 4 s0 (pollEvents b ++
      [.resp ⟨.ok, none, some (if b.getLsbD 0 then .busy else .notBusy), none, none, none⟩]) rest

/-- R196: two frames, RDSR1 then RDSR2, and both bytes raw. -/
def Obligations.ReadStatusSnapshotRun : Prop :=
  ∀ (s s0 : State) (a : Addr) (n : Nat) (x y : List Byte) (b1 b2 : Byte) (rest : List Answer),
    Started .readStatusSnapshot a n none s s0 →
    s.world.answers = .ok x :: .ok [b1] :: .ok y :: .ok [b2] :: rest →
    EndsWith 8 s0
      ([.sel, .tx [0x05] .ok, .rx 1 (.ok [b1]), .desel, .sel, .tx [0x35] .ok, .rx 1 (.ok [b2]), .desel] ++
        [.resp ⟨.ok, none, none, some b1, some b2, none⟩]) rest

/-- R197: a failed first Receive ends the snapshot before the RDSR2 frame, with no sr1. -/
def Obligations.SnapshotAbortReturnsNoByte : Prop :=
  ∀ (s s0 : State) (a : Addr) (n : Nat) (x : List Byte) (e : TErr) (r : Nat) (rest : List Answer),
    Started .readStatusSnapshot a n none s s0 → s.world.answers = .ok x :: .err e r :: rest →
    EndsWith 4 s0
      ([.sel, .tx [0x05] .ok, .rx 1 (.err e), .desel] ++ [.resp ⟨.transportError, some e, none, none, none, none⟩]) rest

/-- R220, R221, R223, R226: the three write-class operations: K1 Busy polls and a NotBusy one, WREN, K2 Busy polls and a NotBusy one, then the command frame, the address unchanged and the payload whole. -/
def Obligations.WriteClassRun : Prop :=
  ∀ (s s0 : State) (op : HostOp) (a : Addr) (n : Nat) (d : List Byte) (bs1 bs2 : List Byte) (b1 b2 : Byte)
    (x y : List Byte) (rest : List Answer) (payload : Option (List Byte)) (frame : List Byte),
    ((op = .eraseSector ∧ payload = none ∧ frame = 0x20 :: addrBytes a) ∨
     (op = .eraseChip ∧ payload = none ∧ frame = [0xC7]) ∨
     (op = .programPage ∧ payload = some d ∧ frame = 0x02 :: addrBytes a ++ d)) →
    Started op a n payload s s0 →
    (∀ l, s.cfg.pollLimit = some l → bs1.length + 1 ≤ l ∧ bs2.length + 1 ≤ l) →
    (∀ z ∈ bs1 ++ bs2, saysBusy z) → saysIdle b1 → saysIdle b2 →
    s.world.answers =
      pollAnswers bs1 ++ pollAnswers [b1] ++ .ok x :: (pollAnswers bs2 ++ pollAnswers [b2] ++ .ok y :: rest) →
    EndsWith (4 * bs1.length + 4 * bs2.length + 14) s0
      (pollsEvents bs1 ++ pollEvents b1 ++ sentEvents [0x06] ++ pollsEvents bs2 ++ pollEvents b2 ++
        sentEvents frame ++ [.resp ⟨.ok, none, none, none, none, none⟩]) rest

/-- R230 and R231: one wait, no WREN, one READ frame, and the bytes in the order received, for every length, 0 included. -/
def Obligations.ReadDataRun : Prop :=
  ∀ (s s0 : State) (a : Addr) (bs : List Byte) (b : Byte) (x data : List Byte) (rest : List Answer),
    Started .readData a data.length none s s0 →
    (∀ l, s.cfg.pollLimit = some l → bs.length + 1 ≤ l) →
    (∀ y ∈ bs, saysBusy y) → saysIdle b →
    s.world.answers = pollAnswers bs ++ pollAnswers [b] ++ .ok x :: .ok data :: rest →
    EndsWith (4 * (bs.length + 1) + 4) s0
      (pollsEvents bs ++ pollEvents b ++
        [.sel, .tx (0x03 :: addrBytes a) .ok, .rx data.length (.ok data), .desel] ++
        [.resp ⟨.ok, none, none, none, none, some data⟩]) rest

/-- R234 and R235: RSTEN and RST in two frames with nothing between, whatever the device is doing. -/
def Obligations.ResetDeviceRun : Prop :=
  ∀ (s s0 : State) (a : Addr) (n : Nat) (x y : List Byte) (rest : List Answer),
    Accepted .resetDevice a n none s s0 → s.resetPin = false → s.blk.cs = false →
    s.world.answers = .ok x :: .ok y :: rest →
    EndsWith 6 s0 (sentEvents [0x66] ++ sentEvents [0x99] ++ [.resp ⟨.ok, none, none, none, none, none⟩]) rest

/-- R145 and R254: with POLL_LIMIT = L, L Busy polls end a waiting operation with POLL_LIMIT. -/
def Obligations.PollLimitEndsTheWait : Prop :=
  ∀ (s s0 : State) (op : HostOp) (a : Addr) (n : Nat) (payload : Option (List Byte)) (bs : List Byte)
    (rest : List Answer),
    Waits op → (op = .programPage → payload ≠ none) → Started op a n payload s s0 →
    s.cfg.pollLimit = some bs.length → bs ≠ [] → (∀ y ∈ bs, saysBusy y) →
    s.world.answers = pollAnswers bs ++ rest →
    EndsWith (4 * bs.length) s0 (pollsEvents bs ++ [.resp ⟨.pollLimit, none, none, none, none, none⟩]) rest

/-- R149 and R305: with POLL_LIMIT UNBOUNDED, however many polls report Busy, the operation is still in its first WAIT_IDLE and has delivered no response. -/
def Obligations.UnboundedWaitNeverEndsWhileBusy : Prop :=
  ∀ (s s0 : State) (op : HostOp) (a : Addr) (n : Nat) (payload : Option (List Byte)) (bs : List Byte)
    (rest : List Answer),
    Waits op → (op = .programPage → payload ≠ none) → Started op a n payload s s0 →
    s.cfg.pollLimit = none → (∀ y ∈ bs, saysBusy y) →
    s.world.answers = pollAnswers bs ++ rest →
    ∃ t, runSteps (4 * bs.length) s0 = .next t ∧ t.blk.phase = .run ∧ t.blk.upc = some 0 ∧
      t.blk.fstep = some .sel ∧ t.blk.polls = bs.length ∧ t.trace = s0.trace ++ pollsEvents bs ∧
      t.world.answers = rest ∧ t.blk.pend = none

/-! ## The machine as a whole -/

/-- R153: the step machine produces the trace, the response and the environment that the pseudocode of R134, R144 and R190 to R234 produces, for every transport and device, in one step for each transport event (D1); and as far as the pseudocode's loop has polled, so has the step machine. The host's later commands, the reset input and the parameters stay. -/
def Obligations.StepMachineRunsThePseudocode : Prop :=
  ∀ (s s0 : State) (op : HostOp) (a : Addr) (n : Nat) (d : List Byte) (payload : Option (List Byte)) (fuel : Nat),
    Accepted op a n payload s s0 → s.resetPin = false → s.blk.cs = false →
    (op = .programPage → payload = some d) →
    (∀ r p, Pseudo.result (Pseudo.operation s.cfg fuel op a n d ⟨s0.world, s0.trace⟩) = some (r, p) →
      ∃ k t, runSteps k s0 = .next t ∧ k + s0.trace.length = p.trace.length ∧
        t.blk.phase = .idle ∧ t.blk.cs = false ∧ t.trace = p.trace ++ [.resp r] ∧ t.world = p.world ∧ SamePorts s0 t) ∧
    (∀ p, Pseudo.operation s.cfg fuel op a n d ⟨s0.world, s0.trace⟩ = .polling p →
      ∃ k t, runSteps k s0 = .next t ∧ k + s0.trace.length = p.trace.length ∧
        t.blk.phase = .run ∧ t.trace = p.trace ∧ t.world = p.world ∧ SamePorts s0 t)

/-- The reset state meets the invariant. -/
def Obligations.ResetMeetsTheInvariant : Prop :=
  State.reset.Inv ∧ State.reset.Framed ∧ State.reset.Guarded

/-- Every step keeps the invariant: chip select only inside frames, upc inside the micro-program, received bytes of the right length, polls below the limit, and the device array in canonical form. -/
def Obligations.StepKeepsTheInvariant : Prop :=
  ∀ s t : State, s.Inv → step s = .next t → t.Inv

/-- From every state that meets the invariant a step answers a next state, unless the host presents what it cannot present; no fault. -/
def Obligations.StepNeverFaults : Prop :=
  ∀ s : State, s.Inv →
    (∃ t, step s = .next t) ∨
    (s.blk.phase = .idle ∧ ∃ c rest r, s.host = c :: rest ∧ offerOf s.cfg c = .unpresentable r ∧ step s = .refused r)

/-- R25, R36, R71, R139: every step keeps the trace framed: between a Select and its Deselect at most one Transmit (none only where a block reset cuts the window short, R291, which the predicate does not check), then at most one Receive, and nothing else. -/
def Obligations.StepKeepsTheTraceFramed : Prop :=
  ∀ s t : State, s.Inv → s.Framed → step s = .next t → t.Framed

/-- R173: every step keeps the guard: WREN, PP, READ, SE and CE are sent only directly after a poll that reported NotBusy. -/
def Obligations.GuardedFramesFollowAnIdlePoll : Prop :=
  ∀ s t : State, s.Inv → s.Guarded → step s = .next t → t.Guarded

/-- R30: without a block reset, every step keeps one response for each accepted command, owed while the operation runs. -/
def Obligations.OneResponsePerCommand : Prop :=
  ∀ s t : State, s.resetPin = false → step s = .next t →
    cmdCount s.trace = respCount s.trace + s.blk.phase.owed →
    cmdCount t.trace = respCount t.trace + t.blk.phase.owed

/-- R97 and R36: the only bytes 0 a step transmits are the ten opcodes, and it transmits only in phase RUN; the trace only grows. -/
def Obligations.OnlyTheTenOpcodesAreSent : Prop :=
  ∀ s t : State, step s = .next t →
    ∃ new, t.trace = s.trace ++ new ∧
      ∀ bytes r, Event.tx bytes r ∈ new →
        s.blk.phase = .run ∧ ∃ opc rest, bytes = opc :: rest ∧ opc ∈ wireOpcodes

/-- R24: while an operation runs, upc stays or goes up by exactly 1, and the operation ends with OK only when it reaches the end of the micro-program. -/
def Obligations.UpcNeverGoesBack : Prop :=
  ∀ (s t : State) (c : Current), s.resetPin = false → s.blk.phase = .run → s.blk.current = .ok c →
    step s = .next t →
    (t.blk.upc = some c.upc ∨ t.blk.upc = some (c.upc + 1)) ∧
    (∀ r, t.trace = s.trace ++ [.desel, .resp r] → r.status = .ok → s.blk.pend = none →
      t.blk.upc = some c.size ∧ t.blk.phase = .idle)

/-- R28 and R253: no step of a state that meets the invariant delivers a response with status INDETERMINATE. -/
def Obligations.NoIndeterminateResponse : Prop :=
  ∀ s t : State, s.Inv → step s = .next t →
    ∀ r, Event.resp r ∈ t.trace → Event.resp r ∈ s.trace ∨ r.status ≠ .indeterminate

/-- R256: the status of an operation's response: OK or TRANSPORT_ERROR, or POLL_LIMIT for the five operations that wait, with POLL_LIMIT bounded. -/
def Obligations.ResponseStatusOfEachOperation : Prop :=
  ∀ (s t : State) (op : HostOp) (r : Response), s.Inv → s.resetPin = false → s.blk.phase = .run → s.blk.op = some op →
    step s = .next t → t.trace = s.trace ++ [.desel, .resp r] →
    r.status = .ok ∨ r.status = .transportError ∨ (r.status = .pollLimit ∧ Waits op ∧ s.cfg.pollLimit ≠ none)

/-- The parameters never change, and only an accepted or answered command is taken from the host. -/
def Obligations.ParametersAreFixed : Prop :=
  ∀ s t : State, step s = .next t → t.cfg = s.cfg ∧ (t.host = s.host ∨ t.host = s.host.tail)

/-- R31: which fields of an operation's response the host may read. -/
def Obligations.ResponseFieldsValidOnlyWhereNamed : Prop :=
  ∀ (o : OpOutcome) (b : Block),
    (∀ e, (responseFor o b).readTerr = .ok e ↔ o = .transportError e) ∧
    (∀ c, (responseFor o b).readBusyState = .ok c ↔
      o = .ok ∧ b.op = some .queryBusy ∧ ∃ x, b.bstate = some x ∧ c = busyCode x) ∧
    (∀ x, (responseFor o b).readSr1 = .ok x ↔ o = .ok ∧ b.op = some .readStatusSnapshot ∧ b.sr1 = some x) ∧
    (∀ x, (responseFor o b).readSr2 = .ok x ↔ o = .ok ∧ b.op = some .readStatusSnapshot ∧ b.sr2 = some x) ∧
    (∀ x, (responseFor o b).readRdata = .ok x ↔ o = .ok ∧ b.op = some .readData ∧ b.rdata = some x) ∧
    (responseFor o b).readStatus = statusCode o.status

/-! ## The device of the environment model -/

/-- R161, R162: with the device attached, a sent WREN sets WEL of an idle device, and a sent WRDI clears WEL in any device state; neither touches the array or BUSY. -/
def Obligations.WriteEnableLatch : Prop :=
  ∀ (w : World), w.attached = true → w.dev.armed = false →
    (w.dev.pending = none → ({ w with wire := [0x06] } : World).deselect.dev.wel = true) ∧
    ({ w with wire := [0x04] } : World).deselect.dev.wel = false ∧
    (w.dev.pending = none → ({ w with wire := [0x06] } : World).deselect.dev.pending = none ∧
      ({ w with wire := [0x06] } : World).deselect.dev.array = w.dev.array) ∧
    ({ w with wire := [0x04] } : World).deselect.dev.pending = w.dev.pending ∧
    ({ w with wire := [0x04] } : World).deselect.dev.array = w.dev.array

/-- R171, R172, R76, R79: PP, SE and CE are accepted exactly while WEL is set: BUSY becomes 1 with the operation pending, the array untouched so far; with WEL = 0 the device does not change, which is the spec's own reading of 'not accepted' (D24, 93 item 33). That an address at or above FLASH_SIZE changes nothing of this is the model's choice (log entry 27). -/
def Obligations.ProgramAndEraseNeedWriteEnable : Prop :=
  ∀ (w : World) (frame : List Byte) (p : Pending), ReadyDevice w →
    ((∃ a d, frame = 0x02 :: addrBytes a ++ d ∧ p = .program a d) ∨
     (∃ a, frame = 0x20 :: addrBytes a ∧ p = .eraseSector a) ∨ (frame = [0xC7] ∧ p = .eraseChip)) →
    (w.dev.wel = true →
      ({ w with wire := frame } : World).deselect.dev.pending = some p ∧
      ({ w with wire := frame } : World).deselect.dev.busy = true ∧
      ({ w with wire := frame } : World).deselect.dev.array = w.dev.array) ∧
    (w.dev.wel = false → ({ w with wire := frame } : World).deselect.dev = w.dev)

/-- R72, R173: a status read leaves the device as it is, busy or not, and so does a READ of an idle device. -/
def Obligations.ReadsLeaveTheDevice : Prop :=
  ∀ (w : World) (a : Addr), w.attached = true → w.dev.armed = false →
    ({ w with wire := [0x05] } : World).deselect.dev = w.dev ∧
    ({ w with wire := [0x35] } : World).deselect.dev = w.dev ∧
    (w.dev.pending = none → ({ w with wire := 0x03 :: addrBytes a } : World).deselect.dev = w.dev)

/-- The end of a frame of any wire instruction but RST, sent whole to an idle device with no RSTEN outstanding, leaves every byte of the array: PP, SE and CE act on it only as BUSY returns to 0 (R79, R172). The effect of RST is unspecified (R175). That RSTEN alone leaves the array is the model's choice (log entry 16). -/
def Obligations.FrameEndLeavesEveryByteOfTheArray : Prop :=
  ∀ (w : World) (i : Instr) (tx : List Byte) (rx : Option Nat) (x : Nat), ReadyDevice w →
    IsWire i → i ≠ .rst → encode i = .frame tx rx →
    ({ w with wire := tx } : World).deselect.dev.array.readByte x = w.dev.array.readByte x

/-- In oracle mode (R6) no step touches the device or attaches it; that the record then stands still is the model's choice (log entry 9). -/
def Obligations.OracleModeLeavesTheDevice : Prop :=
  ∀ s t : State, s.world.attached = false → step s = .next t →
    t.world.attached = false ∧ t.world.dev = s.world.dev

/-- R163, R164, R166, R37: what an idle or busy device answers: SR1 with BUSY in bit 0 and SR2 for a status read, Mem byte by byte for a READ inside the device. -/
def Obligations.DeviceAnswers : Prop :=
  ∀ (cfg : Cfg) (w : World) (bytes : List Byte) (rest : List Answer) (a : Addr) (n : Nat),
    w.attached = true → w.dev.armed = false → w.answers = .ok bytes :: rest →
    (∃ b, ({ w with wire := [0x05] } : World).rxResult cfg 1 = .ok [b] ∧
      b.getLsbD 0 = w.dev.pending.isSome ∧ b.extractLsb' 1 7 = w.dev.sr1hi) ∧
    ({ w with wire := [0x35] } : World).rxResult cfg 1 = .ok [w.dev.sr2] ∧
    (w.dev.pending = none → a.toNat + n ≤ cfg.flashSize.val →
      ({ w with wire := 0x03 :: addrBytes a } : World).rxResult cfg n =
        .ok ((List.range n).map (fun i => w.dev.array.readByte (a.toNat + i))))

/-- R77, R165: a completed program inside one page and inside the device makes each byte of its range PROGRAM_FN of its old value, and leaves every other byte. A program of no byte (N = 0) addressed inside the device leaves the whole array, which is log entry 19. -/
def Obligations.ProgramWritesExactlyItsRange : Prop :=
  ∀ (cfg : Cfg) (k : Nat) (m : FlashArray) (a : Addr) (d : List Byte) (x : Nat),
    a.toNat < cfg.flashSize.val → a.toNat + d.length ≤ cfg.flashSize.val →
    (d = [] ∨ a.toNat / 256 = (a.toNat + d.length - 1) / 256) →
    ((Pending.program a d).complete cfg k m).readByte x =
      if a.toNat ≤ x ∧ x < a.toNat + d.length
      then Config.programFn (m.readByte x) (d.getD (x - a.toNat) 0)
      else m.readByte x

/-- A program that crosses a page boundary inside the device leaves every byte of the pages it does not touch. This is the model's reading of 93 item 29 (log entry 19): R68 itself gives an unspecified effect on the array. -/
def Obligations.CrossingProgramLeavesOtherPages : Prop :=
  ∀ (cfg : Cfg) (k : Nat) (m : FlashArray) (a : Addr) (d : List Byte) (x : Nat),
    d ≠ [] → a.toNat + d.length ≤ cfg.flashSize.val →
    (x / 256 < a.toNat / 256 ∨ (a.toNat + d.length - 1) / 256 < x / 256) →
    ((Pending.program a d).complete cfg k m).readByte x = m.readByte x

/-- R167, R67, R168: a completed sector erase makes exactly the 4096-byte-aligned region of the address ERASED_BYTE, whatever the address's alignment; a chip erase every byte. -/
def Obligations.EraseClearsItsSectorOrAll : Prop :=
  ∀ (cfg : Cfg) (k : Nat) (m : FlashArray) (a : Addr) (x : Nat),
    (a.toNat / 4096 * 4096 + 4096 ≤ cfg.flashSize.val →
      ((Pending.eraseSector a).complete cfg k m).readByte x =
        if x / 4096 = a.toNat / 4096 then Config.erasedByte else m.readByte x) ∧
    (Pending.eraseChip.complete cfg k m).readByte x = Config.erasedByte

/-- R172, R174: at a Select, a busy device is still busy and unchanged, or BUSY is 0 and the effect on Mem is complete; an idle device does not change. -/
def Obligations.BusyUntilTheEffectIsComplete : Prop :=
  ∀ (cfg : Cfg) (w : World), w.attached = true →
    (w.dev.pending = none → (w.select cfg).dev = w.dev) ∧
    (∀ p, w.dev.pending = some p →
      (w.select cfg).dev = w.dev ∨
      ((w.select cfg).dev.pending = none ∧ ∃ k, (w.select cfg).dev.array = p.complete cfg k w.dev.array))

/-- R80: with the device attached, a READ sent after an accepted program has completed (BUSY back to 0) is answered with the programmed bytes; a program and READ of no byte included (log entry 19). -/
def Obligations.ReadAfterCompletedProgram : Prop :=
  ∀ (cfg : Cfg) (k1 k2 k3 : Nat) (dev : Device) (a : Addr) (d : List Byte),
    dev.pending = none → dev.armed = false → dev.wel = true → k2.testBit 0 = true →
    a.toNat < cfg.flashSize.val → a.toNat + d.length ≤ cfg.flashSize.val →
    (d = [] ∨ a.toNat / 256 = (a.toNat + d.length - 1) / 256) →
    let dev1 := dev.frameEnd k1 (0x02 :: addrBytes a ++ d)
    let dev2 := dev1.progress cfg k2
    dev1.busy = true ∧ dev2.busy = false ∧
    dev2.send cfg k3 d.length (0x03 :: addrBytes a) =
      (List.range d.length).map (fun i => Config.programFn (dev.array.readByte (a.toNat + i)) (d.getD i 0))

/-- R71 and 93 item 17: a successful Transmit of any wire instruction puts its whole frame on the device; a failed one puts a prefix on it, every prefix (none and all included) for some failure, and after the next event of that instruction the device, if attached, is what the end of a frame with exactly that prefix leaves. That this event is the Deselect which ends the operation (R135) is what TransmitErrorAborts states. What the device does with a prefix is log entry 17. -/
def Obligations.FailedTransmitReachesAPrefix : Prop :=
  ∀ (i : Instr) (s : State) (tx : List Byte) (rx : Option Nat),
    IsWire i → encode i = .frame tx rx → s.blk.phase = .run → s.blk.fstep = some .tx →
    (s.world.txResult = .ok → ∃ s1, exec i s = .next s1 ∧ s1.world.wire = tx) ∧
    (∀ e, s.world.txResult = .err e →
      ∃ j s1 t, exec i s = .next s1 ∧ exec i s1 = .next t ∧ j ≤ tx.length ∧
        s1.world.wire = tx.take j ∧ s1.world.dev = s.world.dev ∧
        (s.world.attached = true → ∃ k, t.world.dev = s.world.dev.frameEnd k (tx.take j)) ∧
        (s.world.attached = false → t.world.dev = s.world.dev)) ∧
    (∀ e j, j ≤ tx.length →
      ∃ s1, exec i { s with world := { s.world with answers := .err e j :: s.world.answers } } = .next s1 ∧
        s1.trace = s.trace ++ [.tx tx (.err e)] ∧ s1.world.wire = tx.take j)

/-- 93 item 32: an RSTEN is outstanding after a frame only if that frame was RSTEN, or if one was outstanding and the bytes were no whole instruction (log entry 16); so none is after an RST, whatever its effect, nor after a truncated frame where there was none. -/
def Obligations.OnlyAnRstenIsOutstanding : Prop :=
  ∀ (d : Device) (k : Nat) (wire : List Byte), (d.frameEnd k wire).armed = true →
    wire = [0x66] ∨ (d.armed = true ∧ ∀ i, decodeWire 0 wire ≠ .ok (i, []))
end

