-- ==== Sys2Proof/Laws/Decode.lean ====
section
/-! SUPPORT. What the decoder's parts do: the fields of a command word, the operation a CMD code selects, and what a decoded frame says of its bytes. -/

namespace Sys2Proof

/-- The three fields of a built command word (R98). -/
theorem fields_of_word (c : BitVec 4) (a : Addr) :
    cmdField (c.setWidth 32 <<< 28 ||| a.setWidth 32) = c ∧
    rsvField (c.setWidth 32 <<< 28 ||| a.setWidth 32) = 0 ∧
    addrField (c.setWidth 32 <<< 28 ||| a.setWidth 32) = a := by
  unfold cmdField rsvField addrField
  refine ⟨?_, ?_, ?_⟩ <;>
    (apply BitVec.eq_of_getLsbD_eq; intro i hi
     simp only [BitVec.getLsbD_or, BitVec.getLsbD_shiftLeft, BitVec.getLsbD_setWidth, BitVec.getLsbD_extractLsb'])
  · simp [hi, show 28 + i < 32 by omega, show i < 32 by omega, show 24 ≤ 28 + i by omega]
  · simp [hi, show 24 + i < 32 by omega, show 24 + i < 28 by omega]
  · simp [hi, show i < 32 by omega, show i < 28 by omega]

/-- The CMD field of an operation's command word is its code, and RSV is 0. -/
theorem fields_of_cmdWord (op : HostOp) (a : Addr) :
    cmdField (cmdWord op a) = cmdCode op ∧ rsvField (cmdWord op a) = 0 ∧ addrField (cmdWord op a) = a :=
  fields_of_word (cmdCode op) a

/-- A CMD code selects at most the operation whose code it is. -/
theorem cmdCode_of_opOfCmd {c : BitVec 4} {op : HostOp} (h : opOfCmd c = some op) : cmdCode op = c := by
  revert h; revert c op; decide

/-- Codes 0x9 to 0xF select no operation (R100). -/
theorem opOfCmd_reserved {c : BitVec 4} : 9 ≤ c.toNat → opOfCmd c = none := by revert c; decide

/-- A decoded frame is one wire instruction with nothing after it and its own receive part. -/
theorem decodeFrame_ok {tx : List Byte} {rx : Option Nat} {i : Instr} (h : decodeFrame tx rx = .ok i) :
    decodeWire (rx.getD 0) tx = .ok (i, []) ∧ i.rxPart = rx := by
  unfold decodeFrame at h
  split at h
  · cases h
  · split at h
    · cases h; exact ⟨by assumption, by assumption⟩
    · cases h
  · cases h

end Sys2Proof
end

