-- ==== Sys2Proof/Laws/Memory.lean ====
section
/-! SUPPORT. The laws of the device array: read after write, what filling a page changes, and that every operation on it keeps the canonical form. -/

namespace Sys2Proof.Machine

variable {α : Type}

theorem rising_mono {lo lo' : Nat} {t : List (Nat × α)} (h : rising lo t = true) (hl : lo' ≤ lo) :
    rising lo' t = true := by
  cases t with
  | nil => rfl
  | cons p t =>
    simp only [rising, Bool.and_eq_true, decide_eq_true_eq] at h ⊢
    exact ⟨by omega, h.2⟩

theorem put_rising {k : Nat} {v : α} : ∀ {lo : Nat} {t : List (Nat × α)},
    rising lo t = true → lo ≤ k → rising lo (put k v t) = true
  | lo, [], _, hk => by simp [put, rising, hk]
  | lo, (j, w) :: t, h, hk => by
    simp only [rising, Bool.and_eq_true, decide_eq_true_eq] at h
    unfold put
    split
    · simp only [rising, Bool.and_eq_true, decide_eq_true_eq]
      exact ⟨hk, by omega, h.2⟩
    · split
      · subst k; simp only [rising, Bool.and_eq_true, decide_eq_true_eq]; exact ⟨hk, h.2⟩
      · simp only [rising, Bool.and_eq_true, decide_eq_true_eq]
        exact ⟨h.1, put_rising h.2 (by omega)⟩

theorem filter_rising {q : Nat × α → Bool} : ∀ {lo : Nat} {t : List (Nat × α)},
    rising lo t = true → rising lo (t.filter q) = true
  | _, [], _ => rfl
  | lo, (j, w) :: t, h => by
    simp only [rising, Bool.and_eq_true, decide_eq_true_eq] at h
    have ih := filter_rising (q := q) h.2
    by_cases hq : q (j, w) = true
    · simp only [List.filter_cons, hq, if_true, rising, Bool.and_eq_true, decide_eq_true_eq]
      exact ⟨h.1, ih⟩
    · simp only [List.filter_cons, hq]
      exact rising_mono ih (by omega)

/-- Reading the entry just set, or another one. -/
theorem assoc_put (k : Nat) (v : α) (x : Nat) : ∀ t : List (Nat × α),
    assoc (put k v t) x = if x = k then some v else assoc t x
  | [] => by simp [put, assoc]
  | (j, w) :: t => by
    unfold put
    split
    · simp [assoc]
    · split
      · subst k; by_cases hx : x = j <;> simp [assoc, hx]
      · rename_i h1 h2
        simp only [assoc, assoc_put k v x t]
        by_cases hx : x = j
        · have : x ≠ k := by omega
          simp [hx, show j ≠ k by omega]
        · simp [hx]

/-- An entry survives a filter on keys, or is gone. -/
theorem assoc_filter (q : Nat → Bool) (x : Nat) : ∀ t : List (Nat × α),
    assoc (t.filter (fun c => q c.1)) x = if q x then assoc t x else none
  | [] => by simp [assoc]
  | (j, w) :: t => by
    have ih := assoc_filter q x t
    by_cases hj : q j = true
    · by_cases hx : x = j
      · subst hx; simp [assoc, hj]
      · simp [assoc, hj, hx, ih]
    · by_cases hx : x = j
      · subst hx; simp [hj, ih]
      · simp [assoc, hj, hx, ih]

/-- Read after write (R75). -/
@[simp] theorem readByte_writeByte (m : FlashArray) (a : Nat) (b : Byte) (x : Nat) :
    (m.writeByte a b).readByte x = if x = a then b else m.readByte x := by
  unfold FlashArray.readByte FlashArray.writeByte
  rw [assoc_put]
  by_cases h : x = a
  · simp [h]
  · simp only [h, if_false]; rfl

theorem assoc_pages_setPage (m : FlashArray) (p : Nat) (f : Fill) (x : Nat) :
    (m.setPage p f).fill x = if x = p then f else m.fill x := by
  unfold FlashArray.fill FlashArray.setPage
  by_cases hf : f = m.rest
  · simp only [hf, if_true]
    rw [assoc_filter (fun j => decide (j ≠ p)) x]
    by_cases hx : x = p <;> simp [hx]
  · simp only [hf, if_false, assoc_put]
    by_cases hx : x = p <;> simp [hx]

/-- Filling a page decides every byte of the page and no other (R74). -/
@[simp] theorem readByte_setPage (m : FlashArray) (p : Nat) (f : Fill) (x : Nat) :
    (m.setPage p f).readByte x = if pageOf x = p then f.byte x else m.readByte x := by
  have hc : assoc (m.setPage p f).cells x = if pageOf x = p then none else assoc m.cells x := by
    have := assoc_filter (fun j => decide (pageOf j ≠ p)) x m.cells
    by_cases hx : pageOf x = p <;> simpa [FlashArray.setPage, hx] using this
  unfold FlashArray.readByte FlashArray.unlisted
  rw [hc, assoc_pages_setPage]
  by_cases hx : pageOf x = p <;> simp [hx]

/-- Filling several pages. -/
theorem readByte_setPages (m : FlashArray) (p : Nat) (f : Fill) (x : Nat) : ∀ n : Nat,
    (m.setPages p f n).readByte x =
      if p ≤ pageOf x ∧ pageOf x < p + n then f.byte x else m.readByte x
  | 0 => by
    have : ¬ (p ≤ pageOf x ∧ pageOf x < p + 0) := by omega
    rw [FlashArray.setPages, if_neg this]
  | n + 1 => by
    rw [FlashArray.setPages, readByte_setPage, readByte_setPages m p f x n]
    by_cases h1 : pageOf x = p + n
    · simp [h1]
    · have : (p ≤ pageOf x ∧ pageOf x < p + (n + 1)) ↔ (p ≤ pageOf x ∧ pageOf x < p + n) := by omega
      simp only [h1, if_false, this]

@[simp] theorem readByte_fillAll (f : Fill) (x : Nat) : (FlashArray.fillAll f).readByte x = f.byte x := rfl

/-- The canonical form, spelled out. -/
theorem FlashArray.wf_iff (m : FlashArray) :
    m.wf = true ↔ rising 0 m.cells = true ∧ rising 0 m.pages = true ∧ ∀ c ∈ m.pages, c.2 ≠ m.rest := by
  simp [FlashArray.wf, and_assoc]

theorem mem_put {k : Nat} {v : α} {c : Nat × α} : ∀ {t : List (Nat × α)}, c ∈ put k v t → c = (k, v) ∨ c ∈ t
  | [], h => by simpa [put] using h
  | (j, w) :: t, h => by
    unfold put at h
    split at h
    · simpa using h
    · split at h
      · rcases List.mem_cons.1 h with h | h
        · exact .inl h
        · exact .inr (List.mem_cons_of_mem _ h)
      · rcases List.mem_cons.1 h with h | h
        · exact .inr (by simp [h])
        · rcases mem_put h with h | h
          · exact .inl h
          · exact .inr (List.mem_cons_of_mem _ h)

theorem wf_writeByte {m : FlashArray} (h : m.wf = true) (a : Nat) (b : Byte) : (m.writeByte a b).wf = true := by
  rw [FlashArray.wf_iff] at h ⊢
  exact ⟨put_rising h.1 (Nat.zero_le _), h.2⟩

theorem wf_setPage {m : FlashArray} (h : m.wf = true) (p : Nat) (f : Fill) : (m.setPage p f).wf = true := by
  rw [FlashArray.wf_iff] at h ⊢
  refine ⟨filter_rising h.1, ?_, ?_⟩
  · unfold FlashArray.setPage
    dsimp only
    split
    · exact filter_rising h.2.1
    · exact put_rising h.2.1 (Nat.zero_le _)
  · intro c hc
    unfold FlashArray.setPage at hc ⊢
    dsimp only at hc ⊢
    split at hc
    · exact h.2.2 c (List.mem_filter.1 hc).1
    · rename_i hf
      rcases mem_put hc with rfl | hc
      · exact hf
      · exact h.2.2 c hc

theorem wf_setPages {m : FlashArray} (h : m.wf = true) (p : Nat) (f : Fill) : ∀ n, (m.setPages p f n).wf = true
  | 0 => h
  | n + 1 => wf_setPage (wf_setPages h p f n) _ _

theorem wf_fillAll (f : Fill) : (FlashArray.fillAll f).wf = true := by simp [FlashArray.fillAll, FlashArray.wf, rising]

theorem wf_programBytes : ∀ (bs : List Byte) {m : FlashArray} (a : Nat), m.wf = true → (m.programBytes a bs).wf = true
  | [], _, _, h => h
  | _ :: bs, _, a, h => wf_programBytes bs (a + 1) (wf_writeByte h _ _)

theorem wf_complete {m : FlashArray} (h : m.wf = true) (cfg : Cfg) (k : Nat) (p : Pending) :
    (p.complete cfg k m).wf = true := by
  cases p <;> simp only [Pending.complete]
  · split
    · exact wf_fillAll _
    · split
      · exact wf_programBytes _ _ h
      · exact wf_setPages h _ _ _
  · split
    · exact wf_fillAll _
    · exact wf_setPages h _ _ _
  · exact wf_fillAll _
  · exact wf_fillAll _

theorem wf_anyState (k : Nat) : (Device.anyState k).array.wf = true := wf_fillAll _

theorem wf_progress {d : Device} (h : d.array.wf = true) (cfg : Cfg) (k : Nat) : (d.progress cfg k).array.wf = true := by
  unfold Device.progress
  split
  · exact h
  · split
    · exact wf_complete h _ _ _
    · exact h

theorem wf_start {d : Device} (h : d.array.wf = true) (k : Nat) (p : Pending) : (d.start k p).array.wf = true := by
  unfold Device.start
  split
  · exact wf_anyState k
  · split <;> exact h

theorem wf_react {d : Device} (h : d.array.wf = true) (k : Nat) (i : Instr) : (d.react k i).array.wf = true := by
  cases i <;> simp only [Device.react, Device.onWren, Device.onWrdi, Device.onRdsr1, Device.onRdsr2, Device.onPp,
    Device.onRead, Device.onSe, Device.onCe, Device.onRsten, Device.onRst] <;>
    first
    | exact h
    | exact wf_start h _ _
    | exact wf_anyState k
    | (split <;> first | exact wf_anyState k | exact h)

theorem wf_frameEnd {d : Device} (h : d.array.wf = true) (k : Nat) (wire : List Byte) :
    (d.frameEnd k wire).array.wf = true := by
  unfold Device.frameEnd
  split
  · exact h
  · split
    · split
      · exact wf_anyState k
      · exact wf_react h _ _
    · exact wf_anyState k
    · exact wf_anyState k

@[simp] theorem draw_dev (w : World) : w.draw.2.dev = w.dev := by unfold World.draw; split <;> rfl
@[simp] theorem draw_attached (w : World) : w.draw.2.attached = w.attached := by unfold World.draw; split <;> rfl
@[simp] theorem draw_answers (w : World) : w.draw.2.answers = w.answers := by unfold World.draw; split <;> rfl
@[simp] theorem draw_wire (w : World) : w.draw.2.wire = w.wire := by unfold World.draw; split <;> rfl

theorem wf_select {w : World} (h : w.dev.array.wf = true) (cfg : Cfg) : (w.select cfg).dev.array.wf = true := by
  unfold World.select
  split
  · exact wf_progress h _ _
  · exact h

theorem wf_world_frameEnd {w : World} (h : w.dev.array.wf = true) (wire : List Byte) :
    (w.frameEnd wire).dev.array.wf = true := by
  unfold World.frameEnd
  split
  · exact wf_frameEnd h _ _
  · exact h

theorem wf_cutShort {w : World} (h : w.dev.array.wf = true) : w.cutShort.dev.array.wf = true := by
  unfold World.cutShort
  exact wf_world_frameEnd (by simpa using h) _

end Sys2Proof.Machine
end

