-- ==== Sys2Proof/Laws/State.lean ====
section
/-! SUPPORT. What each update of the state does to each field, so that no later proof unfolds a record update. -/

namespace Sys2Proof.Machine

@[simp] theorem select_blk_phase (s : State) : (select s).blk.phase = s.blk.phase := rfl
@[simp] theorem select_blk_op (s : State) : (select s).blk.op = s.blk.op := rfl
@[simp] theorem select_blk_upc (s : State) : (select s).blk.upc = s.blk.upc := rfl
@[simp] theorem select_blk_fstep (s : State) : (select s).blk.fstep = some .tx := rfl
@[simp] theorem select_blk_cs (s : State) : (select s).blk.cs = true := rfl
@[simp] theorem select_blk_addr (s : State) : (select s).blk.addr = s.blk.addr := rfl
@[simp] theorem select_blk_len (s : State) : (select s).blk.len = s.blk.len := rfl
@[simp] theorem select_blk_payload (s : State) : (select s).blk.payload = s.blk.payload := rfl
@[simp] theorem select_blk_rxbuf (s : State) : (select s).blk.rxbuf = s.blk.rxbuf := rfl
@[simp] theorem select_blk_polls (s : State) : (select s).blk.polls = s.blk.polls := rfl
@[simp] theorem select_blk_pend (s : State) : (select s).blk.pend = s.blk.pend := rfl
@[simp] theorem select_blk_bstate (s : State) : (select s).blk.bstate = s.blk.bstate := rfl
@[simp] theorem select_blk_sr1 (s : State) : (select s).blk.sr1 = s.blk.sr1 := rfl
@[simp] theorem select_blk_sr2 (s : State) : (select s).blk.sr2 = s.blk.sr2 := rfl
@[simp] theorem select_blk_rdata (s : State) : (select s).blk.rdata = s.blk.rdata := rfl
@[simp] theorem select_world (s : State) : (select s).world = s.world.select s.cfg := rfl
@[simp] theorem select_trace (s : State) : (select s).trace = s.trace ++ [.sel] := rfl
@[simp] theorem select_host (s : State) : (select s).host = s.host := rfl
@[simp] theorem select_resetPin (s : State) : (select s).resetPin = s.resetPin := rfl
@[simp] theorem select_cfg (s : State) : (select s).cfg = s.cfg := rfl

@[simp] theorem transmit_blk_phase (tx : List Byte) (rx : Option Nat) (s : State) : (transmit tx rx s).blk.phase = s.blk.phase := by
  unfold transmit; cases s.world.txResult <;> rfl
@[simp] theorem transmit_blk_op (tx : List Byte) (rx : Option Nat) (s : State) : (transmit tx rx s).blk.op = s.blk.op := by
  unfold transmit; cases s.world.txResult <;> rfl
@[simp] theorem transmit_blk_upc (tx : List Byte) (rx : Option Nat) (s : State) : (transmit tx rx s).blk.upc = s.blk.upc := by
  unfold transmit; cases s.world.txResult <;> rfl
@[simp] theorem transmit_blk_cs (tx : List Byte) (rx : Option Nat) (s : State) : (transmit tx rx s).blk.cs = s.blk.cs := by
  unfold transmit; cases s.world.txResult <;> rfl
@[simp] theorem transmit_blk_addr (tx : List Byte) (rx : Option Nat) (s : State) : (transmit tx rx s).blk.addr = s.blk.addr := by
  unfold transmit; cases s.world.txResult <;> rfl
@[simp] theorem transmit_blk_len (tx : List Byte) (rx : Option Nat) (s : State) : (transmit tx rx s).blk.len = s.blk.len := by
  unfold transmit; cases s.world.txResult <;> rfl
@[simp] theorem transmit_blk_payload (tx : List Byte) (rx : Option Nat) (s : State) : (transmit tx rx s).blk.payload = s.blk.payload := by
  unfold transmit; cases s.world.txResult <;> rfl
@[simp] theorem transmit_blk_rxbuf (tx : List Byte) (rx : Option Nat) (s : State) : (transmit tx rx s).blk.rxbuf = s.blk.rxbuf := by
  unfold transmit; cases s.world.txResult <;> rfl
@[simp] theorem transmit_blk_polls (tx : List Byte) (rx : Option Nat) (s : State) : (transmit tx rx s).blk.polls = s.blk.polls := by
  unfold transmit; cases s.world.txResult <;> rfl
@[simp] theorem transmit_blk_bstate (tx : List Byte) (rx : Option Nat) (s : State) : (transmit tx rx s).blk.bstate = s.blk.bstate := by
  unfold transmit; cases s.world.txResult <;> rfl
@[simp] theorem transmit_blk_sr1 (tx : List Byte) (rx : Option Nat) (s : State) : (transmit tx rx s).blk.sr1 = s.blk.sr1 := by
  unfold transmit; cases s.world.txResult <;> rfl
@[simp] theorem transmit_blk_sr2 (tx : List Byte) (rx : Option Nat) (s : State) : (transmit tx rx s).blk.sr2 = s.blk.sr2 := by
  unfold transmit; cases s.world.txResult <;> rfl
@[simp] theorem transmit_blk_rdata (tx : List Byte) (rx : Option Nat) (s : State) : (transmit tx rx s).blk.rdata = s.blk.rdata := by
  unfold transmit; cases s.world.txResult <;> rfl
@[simp] theorem transmit_world (tx : List Byte) (rx : Option Nat) (s : State) : (transmit tx rx s).world = s.world.transmit tx := rfl
@[simp] theorem transmit_trace (tx : List Byte) (rx : Option Nat) (s : State) : (transmit tx rx s).trace = s.trace ++ [.tx tx s.world.txResult] := rfl
@[simp] theorem transmit_host (tx : List Byte) (rx : Option Nat) (s : State) : (transmit tx rx s).host = s.host := rfl
@[simp] theorem transmit_resetPin (tx : List Byte) (rx : Option Nat) (s : State) : (transmit tx rx s).resetPin = s.resetPin := rfl
@[simp] theorem transmit_cfg (tx : List Byte) (rx : Option Nat) (s : State) : (transmit tx rx s).cfg = s.cfg := rfl

@[simp] theorem receive_blk_phase (n : Nat) (s : State) : (receive n s).blk.phase = s.blk.phase := by
  unfold receive; cases s.world.rxResult s.cfg n <;> rfl
@[simp] theorem receive_blk_op (n : Nat) (s : State) : (receive n s).blk.op = s.blk.op := by
  unfold receive; cases s.world.rxResult s.cfg n <;> rfl
@[simp] theorem receive_blk_upc (n : Nat) (s : State) : (receive n s).blk.upc = s.blk.upc := by
  unfold receive; cases s.world.rxResult s.cfg n <;> rfl
@[simp] theorem receive_blk_cs (n : Nat) (s : State) : (receive n s).blk.cs = s.blk.cs := by
  unfold receive; cases s.world.rxResult s.cfg n <;> rfl
@[simp] theorem receive_blk_addr (n : Nat) (s : State) : (receive n s).blk.addr = s.blk.addr := by
  unfold receive; cases s.world.rxResult s.cfg n <;> rfl
@[simp] theorem receive_blk_len (n : Nat) (s : State) : (receive n s).blk.len = s.blk.len := by
  unfold receive; cases s.world.rxResult s.cfg n <;> rfl
@[simp] theorem receive_blk_payload (n : Nat) (s : State) : (receive n s).blk.payload = s.blk.payload := by
  unfold receive; cases s.world.rxResult s.cfg n <;> rfl
@[simp] theorem receive_blk_polls (n : Nat) (s : State) : (receive n s).blk.polls = s.blk.polls := by
  unfold receive; cases s.world.rxResult s.cfg n <;> rfl
@[simp] theorem receive_blk_bstate (n : Nat) (s : State) : (receive n s).blk.bstate = s.blk.bstate := by
  unfold receive; cases s.world.rxResult s.cfg n <;> rfl
@[simp] theorem receive_blk_sr1 (n : Nat) (s : State) : (receive n s).blk.sr1 = s.blk.sr1 := by
  unfold receive; cases s.world.rxResult s.cfg n <;> rfl
@[simp] theorem receive_blk_sr2 (n : Nat) (s : State) : (receive n s).blk.sr2 = s.blk.sr2 := by
  unfold receive; cases s.world.rxResult s.cfg n <;> rfl
@[simp] theorem receive_blk_rdata (n : Nat) (s : State) : (receive n s).blk.rdata = s.blk.rdata := by
  unfold receive; cases s.world.rxResult s.cfg n <;> rfl
@[simp] theorem receive_world (n : Nat) (s : State) : (receive n s).world = s.world.receive := rfl
@[simp] theorem receive_trace (n : Nat) (s : State) : (receive n s).trace = s.trace ++ [.rx n (s.world.rxResult s.cfg n)] := rfl
@[simp] theorem receive_host (n : Nat) (s : State) : (receive n s).host = s.host := rfl
@[simp] theorem receive_resetPin (n : Nat) (s : State) : (receive n s).resetPin = s.resetPin := rfl
@[simp] theorem receive_cfg (n : Nat) (s : State) : (receive n s).cfg = s.cfg := rfl

@[simp] theorem deselect_blk_phase (s : State) : (deselect s).blk.phase = s.blk.phase := rfl
@[simp] theorem deselect_blk_op (s : State) : (deselect s).blk.op = s.blk.op := rfl
@[simp] theorem deselect_blk_upc (s : State) : (deselect s).blk.upc = s.blk.upc := rfl
@[simp] theorem deselect_blk_fstep (s : State) : (deselect s).blk.fstep = s.blk.fstep := rfl
@[simp] theorem deselect_blk_cs (s : State) : (deselect s).blk.cs = false := rfl
@[simp] theorem deselect_blk_addr (s : State) : (deselect s).blk.addr = s.blk.addr := rfl
@[simp] theorem deselect_blk_len (s : State) : (deselect s).blk.len = s.blk.len := rfl
@[simp] theorem deselect_blk_payload (s : State) : (deselect s).blk.payload = s.blk.payload := rfl
@[simp] theorem deselect_blk_rxbuf (s : State) : (deselect s).blk.rxbuf = s.blk.rxbuf := rfl
@[simp] theorem deselect_blk_polls (s : State) : (deselect s).blk.polls = s.blk.polls := rfl
@[simp] theorem deselect_blk_pend (s : State) : (deselect s).blk.pend = s.blk.pend := rfl
@[simp] theorem deselect_blk_bstate (s : State) : (deselect s).blk.bstate = s.blk.bstate := rfl
@[simp] theorem deselect_blk_sr1 (s : State) : (deselect s).blk.sr1 = s.blk.sr1 := rfl
@[simp] theorem deselect_blk_sr2 (s : State) : (deselect s).blk.sr2 = s.blk.sr2 := rfl
@[simp] theorem deselect_blk_rdata (s : State) : (deselect s).blk.rdata = s.blk.rdata := rfl
@[simp] theorem deselect_world (s : State) : (deselect s).world = s.world.deselect := rfl
@[simp] theorem deselect_trace (s : State) : (deselect s).trace = s.trace ++ [.desel] := rfl
@[simp] theorem deselect_host (s : State) : (deselect s).host = s.host := rfl
@[simp] theorem deselect_resetPin (s : State) : (deselect s).resetPin = s.resetPin := rfl
@[simp] theorem deselect_cfg (s : State) : (deselect s).cfg = s.cfg := rfl

@[simp] theorem finish_blk_phase (o : OpOutcome) (s : State) : (finish o s).blk.phase = .idle := rfl
@[simp] theorem finish_blk_op (o : OpOutcome) (s : State) : (finish o s).blk.op = s.blk.op := rfl
@[simp] theorem finish_blk_upc (o : OpOutcome) (s : State) : (finish o s).blk.upc = s.blk.upc := rfl
@[simp] theorem finish_blk_fstep (o : OpOutcome) (s : State) : (finish o s).blk.fstep = s.blk.fstep := rfl
@[simp] theorem finish_blk_cs (o : OpOutcome) (s : State) : (finish o s).blk.cs = s.blk.cs := rfl
@[simp] theorem finish_blk_addr (o : OpOutcome) (s : State) : (finish o s).blk.addr = s.blk.addr := rfl
@[simp] theorem finish_blk_len (o : OpOutcome) (s : State) : (finish o s).blk.len = s.blk.len := rfl
@[simp] theorem finish_blk_payload (o : OpOutcome) (s : State) : (finish o s).blk.payload = s.blk.payload := rfl
@[simp] theorem finish_blk_rxbuf (o : OpOutcome) (s : State) : (finish o s).blk.rxbuf = s.blk.rxbuf := rfl
@[simp] theorem finish_blk_polls (o : OpOutcome) (s : State) : (finish o s).blk.polls = s.blk.polls := rfl
@[simp] theorem finish_blk_pend (o : OpOutcome) (s : State) : (finish o s).blk.pend = s.blk.pend := rfl
@[simp] theorem finish_blk_bstate (o : OpOutcome) (s : State) : (finish o s).blk.bstate = s.blk.bstate := rfl
@[simp] theorem finish_blk_sr1 (o : OpOutcome) (s : State) : (finish o s).blk.sr1 = s.blk.sr1 := rfl
@[simp] theorem finish_blk_sr2 (o : OpOutcome) (s : State) : (finish o s).blk.sr2 = s.blk.sr2 := rfl
@[simp] theorem finish_blk_rdata (o : OpOutcome) (s : State) : (finish o s).blk.rdata = s.blk.rdata := rfl
@[simp] theorem finish_world (o : OpOutcome) (s : State) : (finish o s).world = s.world := rfl
@[simp] theorem finish_trace (o : OpOutcome) (s : State) : (finish o s).trace = s.trace ++ [.resp (responseFor o s.blk)] := rfl
@[simp] theorem finish_host (o : OpOutcome) (s : State) : (finish o s).host = s.host := rfl
@[simp] theorem finish_resetPin (o : OpOutcome) (s : State) : (finish o s).resetPin = s.resetPin := rfl
@[simp] theorem finish_cfg (o : OpOutcome) (s : State) : (finish o s).cfg = s.cfg := rfl

/-- A Transmit that succeeds (R150). -/
theorem transmit_blk_ok {tx : List Byte} {rx : Option Nat} {s : State} (h : s.world.txResult = .ok) :
    (transmit tx rx s).blk = { s.blk with fstep := some (if rx.isSome then .rx else .desel) } := by
  simp [transmit, h]

/-- A Transmit that fails leaves its error pending (R150). -/
theorem transmit_blk_err {tx : List Byte} {rx : Option Nat} {s : State} {e : TErr}
    (h : s.world.txResult = .err e) :
    (transmit tx rx s).blk = { s.blk with pend := some (.transportError e), fstep := some .desel } := by
  simp [transmit, h]

/-- A Receive that succeeds stores its bytes (R150). -/
theorem receive_blk_ok {n : Nat} {s : State} {bs : List Byte} (h : s.world.rxResult s.cfg n = .ok bs) :
    (receive n s).blk = { s.blk with rxbuf := some bs, fstep := some .desel } := by
  simp [receive, h]

/-- A Receive that fails leaves its error pending, and no byte reaches a field (R35). -/
theorem receive_blk_err {n : Nat} {s : State} {e : TErr} (h : s.world.rxResult s.cfg n = .err e) :
    (receive n s).blk = { s.blk with pend := some (.transportError e), fstep := some .desel } := by
  simp [receive, h]

/-- Advance to the next micro-operation (R150). -/
theorem advance_more {c : Current} {s : State} (h : c.upc + 1 ≠ c.size) :
    advance c s = { s with blk := { s.blk with upc := some (c.upc + 1), polls := 0, fstep := some .sel } } := by
  simp [advance, h]

/-- Advance past the last micro-operation ends the operation with OK (R150, R250). -/
theorem advance_last {c : Current} {s : State} (h : c.upc + 1 = c.size) :
    advance c s =
      finish .ok { s with blk := { s.blk with upc := some (c.upc + 1), polls := 0, fstep := some .sel } } := by
  simp [advance, h]

@[simp] theorem advance_world (c : Current) (s : State) : (advance c s).world = s.world := by
  unfold advance; split <;> rfl

@[simp] theorem advance_host (c : Current) (s : State) : (advance c s).host = s.host := by
  unfold advance; split <;> rfl

@[simp] theorem advance_resetPin (c : Current) (s : State) : (advance c s).resetPin = s.resetPin := by
  unfold advance; split <;> rfl

@[simp] theorem advance_cfg (c : Current) (s : State) : (advance c s).cfg = s.cfg := by
  unfold advance; split <;> rfl

@[simp] theorem blockReset_blk (s : State) : (blockReset s).blk = Block.reset := rfl
@[simp] theorem blockReset_host (s : State) : (blockReset s).host = s.host := rfl
@[simp] theorem blockReset_resetPin (s : State) : (blockReset s).resetPin = false := rfl
@[simp] theorem blockReset_cfg (s : State) : (blockReset s).cfg = s.cfg := rfl

@[simp] theorem illegalCommand_blk (c : Command) (s : State) : (illegalCommand c s).blk = s.blk := rfl
@[simp] theorem illegalCommand_world (c : Command) (s : State) : (illegalCommand c s).world = s.world := rfl
@[simp] theorem illegalCommand_trace (c : Command) (s : State) :
    (illegalCommand c s).trace = s.trace ++ [.cmd c.word c.len c.payload, .resp illegalResponse] := rfl
@[simp] theorem illegalCommand_host (c : Command) (s : State) : (illegalCommand c s).host = s.host.tail := rfl
@[simp] theorem illegalCommand_resetPin (c : Command) (s : State) : (illegalCommand c s).resetPin = s.resetPin := rfl
@[simp] theorem illegalCommand_cfg (c : Command) (s : State) : (illegalCommand c s).cfg = s.cfg := rfl

end Sys2Proof.Machine
end

