-- ==== Sys2Proof/Laws/Transport.lean ====
section
/-! SUPPORT. What each transport event does to the environment in oracle mode, and which fields it leaves alone. -/

namespace Sys2Proof.Machine

@[simp] theorem select_answers (w : World) (cfg : Cfg) : (w.select cfg).answers = w.answers := by
  unfold World.select; split <;> simp

@[simp] theorem select_attached (w : World) (cfg : Cfg) : (w.select cfg).attached = w.attached := by
  unfold World.select; split <;> simp

@[simp] theorem select_wire (w : World) (cfg : Cfg) : (w.select cfg).wire = [] := by
  unfold World.select; split <;> rfl

@[simp] theorem transmit_answers (w : World) (tx : List Byte) : (w.transmit tx).answers = w.answers.tail := rfl
@[simp] theorem transmit_attached (w : World) (tx : List Byte) : (w.transmit tx).attached = w.attached := rfl
@[simp] theorem transmit_dev (w : World) (tx : List Byte) : (w.transmit tx).dev = w.dev := rfl
@[simp] theorem receive_answers (w : World) : w.receive.answers = w.answers.tail := rfl
@[simp] theorem receive_attached (w : World) : w.receive.attached = w.attached := rfl
@[simp] theorem receive_dev (w : World) : w.receive.dev = w.dev := rfl
@[simp] theorem receive_wire (w : World) : w.receive.wire = w.wire := rfl

@[simp] theorem deselect_answers (w : World) : w.deselect.answers = w.answers := by
  unfold World.deselect World.frameEnd; split <;> simp

@[simp] theorem deselect_attached (w : World) : w.deselect.attached = w.attached := by
  unfold World.deselect World.frameEnd; split <;> simp

/-- A scripted success (R34). -/
theorem txResult_ok {w : World} {bs : List Byte} {rest : List Answer} (h : w.answers = .ok bs :: rest) :
    w.txResult = .ok := by simp [World.txResult, World.nextAnswer, h]

/-- A scripted failure (R34). -/
theorem txResult_err {w : World} {e : TErr} {r : Nat} {rest : List Answer} (h : w.answers = .err e r :: rest) :
    w.txResult = .err e := by simp [World.txResult, World.nextAnswer, h]

@[simp] theorem fitBytes_length (k n : Nat) (given : List Byte) : (fitBytes k n given).length = n := by
  simp [fitBytes]

@[simp] theorem readBytes_length (cfg : Cfg) (k a n : Nat) (d : Device) : (d.readBytes cfg k a n).length = n := by
  simp [Device.readBytes]

/-- Bytes that fit are received unchanged (R64). -/
theorem fitBytes_exact (k : Nat) (bs : List Byte) : fitBytes k bs.length bs = bs := by
  apply List.ext_getElem
  · simp
  · intro i h1 h2
    simp [fitBytes, List.getD, h2]

theorem send_length (cfg : Cfg) (k n : Nat) (wire : List Byte) (d : Device) : (d.send cfg k n wire).length = n := by
  unfold Device.send
  split
  · simp
  · split
    · rename_i i _
      cases i <;> simp [Device.sendFor]
      split <;> simp
    · simp

/-- A successful Receive has exactly as many bytes as it asked for (R35). -/
theorem rxResult_length {cfg : Cfg} {n : Nat} {w : World} {bs : List Byte} (h : w.rxResult cfg n = .ok bs) :
    bs.length = n := by
  unfold World.rxResult at h
  split at h
  · cases h
  · split at h <;> · cases h; first | exact send_length _ _ _ _ _ | exact fitBytes_length _ _ _

/-- In oracle mode a scripted answer of the right length is what is received (R6, R35). -/
theorem rxResult_oracle {cfg : Cfg} {w : World} {bs : List Byte} {rest : List Answer}
    (ho : w.attached = false) (h : w.answers = .ok bs :: rest) : w.rxResult cfg bs.length = .ok bs := by
  simp [World.rxResult, World.nextAnswer, h, ho, fitBytes_exact]

/-- A scripted failure (R35). -/
theorem rxResult_err {cfg : Cfg} {n : Nat} {w : World} {e : TErr} {r : Nat} {rest : List Answer}
    (h : w.answers = .err e r :: rest) : w.rxResult cfg n = .err e := by
  simp [World.rxResult, World.nextAnswer, h]

end Sys2Proof.Machine
end

