-- ==== Sys2Proof/Laws/Ops.lean ====
section
/-! SUPPORT. One lemma per shared operation that says all it can do: acceptance, a frame's event, the end of a frame, Store, and the current micro-operation. -/

namespace Sys2Proof.Machine

/-- A wire instruction's meaning is the next event of its frame. -/
theorem exec_of_frame {i : Instr} {tx : List Byte} {rx : Option Nat} (h : encode i = .frame tx rx) (s : State) :
    exec i s = frameEvent tx rx s := by
  cases i <;> simp only [encode, Encoded.frame.injEq, reduceCtorEq] at h <;> obtain ⟨rfl, rfl⟩ := h <;> rfl

/-- A host command's meaning is its acceptance; only programPage has a payload. -/
theorem exec_of_command {i : Instr} {c : Command} (h : encode i = .command c) (s : State) :
    ∃ op a n p, exec i s = accept op a n p s ∧ (op = .programPage → p ≠ none) := by
  cases i <;> simp only [encode, reduceCtorEq] at h <;> exact ⟨_, _, _, _, rfl, by simp⟩

/-- Acceptance answers a next state only while IDLE, and this one. -/
theorem accept_next {op : HostOp} {a : Addr} {n : Nat} {p : Option (List Byte)} {s t : State}
    (h : accept op a n p s = .next t) :
    s.blk.phase = .idle ∧
    t = { s with
      blk := acceptBlock op a n p s.blk
      trace := s.trace ++ [.cmd (cmdWord op a) n (p.getD [])]
      host := s.host.tail } := by
  unfold accept at h
  split at h
  · cases h
  · rename_i hp; cases h; exact ⟨hp, rfl⟩

theorem frameEvent_sel {tx : List Byte} {rx : Option Nat} {s : State} (h : s.blk.phase = .run)
    (h2 : s.blk.fstep = some .sel) : frameEvent tx rx s = .next (select s) := by simp [frameEvent, h, h2]

theorem frameEvent_tx {tx : List Byte} {rx : Option Nat} {s : State} (h : s.blk.phase = .run)
    (h2 : s.blk.fstep = some .tx) : frameEvent tx rx s = .next (transmit tx rx s) := by simp [frameEvent, h, h2]

theorem frameEvent_rx {tx : List Byte} {n : Nat} {s : State} (h : s.blk.phase = .run)
    (h2 : s.blk.fstep = some .rx) : frameEvent tx (some n) s = .next (receive n s) := by simp [frameEvent, h, h2]

theorem frameEvent_desel {tx : List Byte} {rx : Option Nat} {s : State} (h : s.blk.phase = .run)
    (h2 : s.blk.fstep = some .desel) : frameEvent tx rx s = endFrame s := by simp [frameEvent, h, h2]

/-- All a frame's event can do when it answers a next state (R150). -/
theorem frameEvent_cases {tx : List Byte} {rx : Option Nat} {s t : State} (h : frameEvent tx rx s = .next t) :
    s.blk.phase = .run ∧
    ((s.blk.fstep = some .sel ∧ t = select s) ∨
     (s.blk.fstep = some .tx ∧ t = transmit tx rx s) ∨
     (∃ n, s.blk.fstep = some .rx ∧ rx = some n ∧ t = receive n s) ∨
     (s.blk.fstep = some .desel ∧ endFrame s = .next t)) := by
  unfold frameEvent at h
  split at h
  · cases h
  · refine ⟨by assumption, ?_⟩
    split at h
    · cases h
    · cases h; left; exact ⟨by assumption, rfl⟩
    · cases h; right; left; exact ⟨by assumption, rfl⟩
    · split at h
      · cases h
      · cases h; right; right; left; exact ⟨_, by assumption, rfl, rfl⟩
    · right; right; right; exact ⟨by assumption, h⟩

/-- All the end of a frame can do when it answers a next state (R150). -/
theorem endFrame_cases {s t : State} {c : Current} (hc : s.blk.current = .ok c) (h : endFrame s = .next t) :
    (∃ o, s.blk.pend = some o ∧ t = finish o (deselect s)) ∨
    (s.blk.pend = none ∧ c.mop = .waitIdle ∧
      ∃ x, s.blk.readRx0 = .ok x ∧ t = pollDecision c (decodeBusy x) (deselect s)) ∨
    (s.blk.pend = none ∧ ∃ tx rx dst b, c.mop = .frame tx rx dst ∧ store dst (deselect s).blk = .ok b ∧
      t = advance c { deselect s with blk := b }) := by
  unfold endFrame at h
  split at h
  · cases h; left; exact ⟨_, by assumption, rfl⟩
  · rename_i hp
    rw [hc] at h
    simp only at h
    split at h
    · rename_i hm
      split at h
      · cases h
      · cases h; right; left; exact ⟨hp, hm, _, by assumption, rfl⟩
    · rename_i hm
      split at h
      · cases h
      · cases h; right; right; exact ⟨hp, _, _, _, _, hm, by assumption, rfl⟩

/-- Store writes result fields only (R137). -/
theorem store_frame {dst : Dst} {b b' : Block} (h : store dst b = .ok b') :
    (b'.op = b.op ∧ b'.addr = b.addr ∧ b'.len = b.len ∧ b'.payload = b.payload) ∧
    b'.phase = b.phase ∧ b'.upc = b.upc ∧ b'.fstep = b.fstep ∧ b'.cs = b.cs ∧ b'.polls = b.polls ∧
    b'.pend = b.pend ∧ b'.rxbuf = b.rxbuf := by
  cases dst <;> simp only [store] at h
  case none => cases h; simp
  all_goals
    split at h
    · cases h; simp
    · cases h

/-- What finding the current micro-operation says of the fields it reads (R24). -/
theorem current_ok {b : Block} {c : Current} (h : b.current = .ok c) :
    ∃ p, b.prog = .ok p ∧ b.upc = some c.upc ∧ p[c.upc]? = some c.mop ∧ c.size = p.length := by
  unfold Block.current at h
  split at h
  · cases h
  · rename_i p hp
    split at h
    · cases h
    · rename_i u hu
      split at h
      · cases h
      · cases h
        refine ⟨p, hp, ?_, by assumption, rfl⟩
        unfold Block.readUpc at hu; split at hu <;> simp_all

/-- The micro-program depends on the operation and its operands alone (R140). -/
theorem prog_congr {b b' : Block} (h1 : b'.op = b.op) (h2 : b'.addr = b.addr) (h3 : b'.len = b.len)
    (h4 : b'.payload = b.payload) : b'.prog = b.prog := by
  simp only [Block.prog, Block.readOp, progEraseSector, progProgramPage, progReadData, Block.readAddr,
    Block.readLen, Block.readPayload, h1, h2, h3, h4]
  cases b.op with
  | none => rfl
  | some op => cases op <;> rfl

/-- So does the current micro-operation, with upc. -/
theorem current_congr {b b' : Block} (h1 : b'.op = b.op) (h2 : b'.addr = b.addr) (h3 : b'.len = b.len)
    (h4 : b'.payload = b.payload) (hu : b'.upc = b.upc) : b'.current = b.current := by
  simp only [Block.current, prog_congr h1 h2 h3 h4, Block.readUpc, hu]

/-- A fetched instruction is what the current micro-operation's frame decodes to. -/
theorem fetch_ok {b : Block} {i : Instr} (h : b.fetch = .ok i) :
    ∃ c, b.current = .ok c ∧ decodeFrame c.mop.tx c.mop.rx = .ok i := by
  unfold Block.fetch at h
  split at h
  · cases h
  · rename_i c hc
    split at h
    · cases h; exact ⟨c, hc, by assumption⟩
    · cases h

end Sys2Proof.Machine
end

