-- ==== Sys2Proof/Laws/PerInstr.lean ====
section
/-! SUPPORT. Statements about every instruction, one lemma per constructor: the shape of its encoding. -/

namespace Sys2Proof.Laws.EncodedShape

/-- A wire instruction's encoding is a frame with one of the ten opcodes in byte 0 and the instruction's receive part (R90, R95, R96); a host command's is a command word with its operation's CMD code and RSV 0 (R98, R99). -/
def Statement (i : Instr) : Prop :=
  match encode i with
  | .frame tx rx => i.hostOp? = none ∧ rx = i.rxPart ∧ ∃ opc rest, tx = opc :: rest ∧ opc ∈ wireOpcodes
  | .command c => ∃ op, i.hostOp? = some op ∧ cmdField c.word = cmdCode op ∧ rsvField c.word = 0

theorem wren : Statement .wren := ⟨rfl, rfl, _, _, rfl, by simp [wireOpcodes]⟩
theorem wrdi : Statement .wrdi := ⟨rfl, rfl, _, _, rfl, by simp [wireOpcodes]⟩
theorem rdsr1 : Statement .rdsr1 := ⟨rfl, rfl, _, _, rfl, by simp [wireOpcodes]⟩
theorem rdsr2 : Statement .rdsr2 := ⟨rfl, rfl, _, _, rfl, by simp [wireOpcodes]⟩
theorem pp (a : Addr) (d : List Byte) : Statement (.pp a d) := ⟨rfl, rfl, _, _, rfl, by simp [wireOpcodes]⟩
theorem read (a : Addr) (n : Nat) : Statement (.read a n) := ⟨rfl, rfl, _, _, rfl, by simp [wireOpcodes]⟩
theorem se (a : Addr) : Statement (.se a) := ⟨rfl, rfl, _, _, rfl, by simp [wireOpcodes]⟩
theorem ce : Statement .ce := ⟨rfl, rfl, _, _, rfl, by simp [wireOpcodes]⟩
theorem rsten : Statement .rsten := ⟨rfl, rfl, _, _, rfl, by simp [wireOpcodes]⟩
theorem rst : Statement .rst := ⟨rfl, rfl, _, _, rfl, by simp [wireOpcodes]⟩
theorem setWriteEnable (a : Addr) (n : Nat) : Statement (.setWriteEnable a n) :=
  ⟨.setWriteEnable, rfl, (fields_of_cmdWord .setWriteEnable a).1, (fields_of_cmdWord .setWriteEnable a).2.1⟩
theorem setWriteDisable (a : Addr) (n : Nat) : Statement (.setWriteDisable a n) :=
  ⟨.setWriteDisable, rfl, (fields_of_cmdWord .setWriteDisable a).1, (fields_of_cmdWord .setWriteDisable a).2.1⟩
theorem queryBusy (a : Addr) (n : Nat) : Statement (.queryBusy a n) :=
  ⟨.queryBusy, rfl, (fields_of_cmdWord .queryBusy a).1, (fields_of_cmdWord .queryBusy a).2.1⟩
theorem readStatusSnapshot (a : Addr) (n : Nat) : Statement (.readStatusSnapshot a n) :=
  ⟨.readStatusSnapshot, rfl, (fields_of_cmdWord .readStatusSnapshot a).1, (fields_of_cmdWord .readStatusSnapshot a).2.1⟩
theorem eraseSector (a : Addr) (n : Nat) : Statement (.eraseSector a n) :=
  ⟨.eraseSector, rfl, (fields_of_cmdWord .eraseSector a).1, (fields_of_cmdWord .eraseSector a).2.1⟩
theorem eraseChip (a : Addr) (n : Nat) : Statement (.eraseChip a n) :=
  ⟨.eraseChip, rfl, (fields_of_cmdWord .eraseChip a).1, (fields_of_cmdWord .eraseChip a).2.1⟩
theorem programPage (a : Addr) (n : Nat) (d : List Byte) : Statement (.programPage a n d) :=
  ⟨.programPage, rfl, (fields_of_cmdWord .programPage a).1, (fields_of_cmdWord .programPage a).2.1⟩
theorem readData (a : Addr) (n : Nat) : Statement (.readData a n) :=
  ⟨.readData, rfl, (fields_of_cmdWord .readData a).1, (fields_of_cmdWord .readData a).2.1⟩
theorem resetDevice (a : Addr) (n : Nat) : Statement (.resetDevice a n) :=
  ⟨.resetDevice, rfl, (fields_of_cmdWord .resetDevice a).1, (fields_of_cmdWord .resetDevice a).2.1⟩

end Sys2Proof.Laws.EncodedShape
end

