-- ==== Sys2Proof/Laws/Step.lean ====
section
/-! SUPPORT. What a presented command is, and running several steps. -/

namespace Sys2Proof.Machine

/-- A presented command that is an instruction is what the decoder reads from it. -/
theorem offerOf_instr {cfg : Cfg} {c : Command} {i : Instr} (h : offerOf cfg c = .instr i) :
    decodeCommand cfg c = .ok i := by
  unfold offerOf at h
  split at h
  all_goals first | (cases h; assumption) | cases h

@[simp] theorem runSteps_zero (s : State) : runSteps 0 s = .next s := rfl

/-- One step, then the rest. -/
theorem runSteps_succ {k : Nat} {s s' : State} (h : step s = .next s') : runSteps (k + 1) s = runSteps k s' := by
  have : Sys2Proof.core.step s = .next s' := h
  simp only [runSteps, Host.Core.run, this]
  rfl

/-- The first `j` steps, then the rest. -/
theorem runSteps_add {j k : Nat} {s t : State} (h : runSteps j s = .next t) : runSteps (j + k) s = runSteps k t := by
  induction j generalizing s with
  | zero => cases h; simp
  | succ j ih =>
    cases hs : step s with
    | next s' => rw [runSteps_succ hs] at h; rw [Nat.add_right_comm, runSteps_succ hs]; exact ih h
    | fault f =>
      exfalso; simp only [runSteps, Host.Core.run] at h
      have : Sys2Proof.core.step s = .fault f := hs
      rw [this] at h; cases h
    | refused f =>
      exfalso; simp only [runSteps, Host.Core.run] at h
      have : Sys2Proof.core.step s = .refused f := hs
      rw [this] at h; cases h

end Sys2Proof.Machine
end

