-- ==== Sys2Proof/Tests/Slice0.lean ====
section
/-! SUPPORT. The model's own tests: ill-formed terms, decoding of the spec's words, one step of each instruction, and a witness for the hypotheses of each obligation. Expected values are from spec/95_test_vectors.md and the rules named. -/

open Sys2Proof Sys2Proof.Machine Sys2Proof.Claims

namespace Sys2Proof.Tests

/-- The machine after reset with commands to present and transport answers to give. -/
def idle (cmds : List Command) (as : List Answer) : State :=
  { State.reset with host := cmds, world := { World.reset with answers := as } }

/-- The machine inside an operation, at one micro-operation and sub-step. -/
def runAt (op : HostOp) (a : Addr) (n : Nat) (pl : Option (List Byte)) (u : Nat) (st : FStep) (as : List Answer) : State :=
  { State.reset with
    blk := { acceptBlock op a n pl Block.reset with upc := some u, fstep := some st, cs := decide (st ≠ .sel) }
    world := { World.reset with answers := as } }

/-- The machine that has accepted a command. -/
def accepted (op : HostOp) (a : Addr) (n : Nat) (pl : Option (List Byte)) (s : State) : State :=
  { s with
    blk := acceptBlock op a n pl s.blk
    trace := s.trace ++ [.cmd (cmdWord op a) n (pl.getD [])]
    host := s.host.tail }

/-- A machine with another POLL_LIMIT. -/
def limited (l : Nat) (s : State) : State := { s with cfg := { s.cfg with pollLimit := some l } }

/-- The environment model attached, its device idle, with WEL as given. -/
def world (wel : Bool) (as : List Answer) : World :=
  { World.reset with attached := true, answers := as, dev := { Device.reset with wel := wel } }

/-- A frame's micro-operation and its place. -/
def at_ (m : MicroOp) (u n : Nat) : Current := ⟨m, u, n⟩

/-- A LEN of 8 bits. -/
def cfg8 : Cfg := { Cfg.default with lenBits := 8 }

/-- The part of a step's next state that a test looks at. -/
def see {α : Type} (f : State → α) : Host.Outcome State Fault Refusal → Option α
  | .next t => some (f t)
  | .fault _ => none
  | .refused _ => none

/-! ## WellFormed refuses -/

theorem test_wf_len_pp : Instr.wf { cfg8 with lenBits := 1 } (.pp 0 [0x5A, 0x5A]) = false := by decide
theorem test_wf_len_read : Instr.wf cfg8 (.read 0 256) = false := by decide
theorem test_wf_len_commands :
    Instr.wf cfg8 (.setWriteEnable 0 256) = false ∧ Instr.wf cfg8 (.setWriteDisable 0 256) = false ∧
    Instr.wf cfg8 (.queryBusy 0 256) = false ∧ Instr.wf cfg8 (.readStatusSnapshot 0 256) = false ∧
    Instr.wf cfg8 (.eraseSector 0 256) = false ∧ Instr.wf cfg8 (.eraseChip 0 256) = false ∧
    Instr.wf cfg8 (.readData 0 256) = false ∧ Instr.wf cfg8 (.resetDevice 0 256) = false := by decide
theorem test_wf_len_programPage : Instr.wf { cfg8 with lenBits := 1 } (.programPage 0 2 [1, 2]) = false := by decide
theorem test_wf_payload_programPage : Instr.wf cfg8 (.programPage 0 3 [1, 2]) = false := by decide
theorem test_wf_largest_len : Instr.wf cfg8 (.readData 0 255) = true ∧ Instr.wf cfg8 (.programPage 0 1 [7]) = true := by
  decide

/-! ## Decoding: the words of 95_test_vectors.md sections 2.1 to 2.4 -/

theorem test_address_bytes :
    addrBytes 0x000000 = [0x00, 0x00, 0x00] ∧ addrBytes 0x0000FF = [0x00, 0x00, 0xFF] ∧
    addrBytes 0x001000 = [0x00, 0x10, 0x00] ∧ addrBytes 0x123456 = [0x12, 0x34, 0x56] ∧
    addrBytes 0x800001 = [0x80, 0x00, 0x01] ∧ addrBytes 0xFFF000 = [0xFF, 0xF0, 0x00] ∧
    addrBytes 0xFFFFFF = [0xFF, 0xFF, 0xFF] := by decide
theorem test_busy_decode :
    decodeBusy 0x00 = .notBusy ∧ decodeBusy 0x01 = .busy ∧ decodeBusy 0x02 = .notBusy ∧ decodeBusy 0x03 = .busy ∧
    decodeBusy 0x80 = .notBusy ∧ decodeBusy 0x81 = .busy ∧ decodeBusy 0xFE = .notBusy ∧ decodeBusy 0xFF = .busy := by
  decide
theorem test_decode_wren : decodeFrame [0x06] none = .ok .wren := by decide
theorem test_decode_wrdi : decodeFrame [0x04] none = .ok .wrdi := by decide
theorem test_decode_rdsr1 : decodeFrame [0x05] (some 1) = .ok .rdsr1 := by decide
theorem test_decode_rdsr2 : decodeFrame [0x35] (some 1) = .ok .rdsr2 := by decide
theorem test_decode_pp : decodeFrame [0x02, 0x00, 0x00, 0xFF, 0x5A] none = .ok (.pp 0x0000FF [0x5A]) := by decide
theorem test_decode_pp_empty : decodeFrame [0x02, 0x12, 0x34, 0x56] none = .ok (.pp 0x123456 []) := by decide
theorem test_decode_read : decodeFrame [0x03, 0x00, 0x01, 0x00] (some 3) = .ok (.read 0x000100 3) := by decide
theorem test_decode_read_zero : decodeFrame [0x03, 0x00, 0x00, 0x00] (some 0) = .ok (.read 0 0) := by decide
theorem test_decode_se : decodeFrame [0x20, 0x00, 0x0F, 0xFF] none = .ok (.se 0x000FFF) := by decide
theorem test_decode_ce : decodeFrame [0xC7] none = .ok .ce := by decide
theorem test_decode_rsten : decodeFrame [0x66] none = .ok .rsten := by decide
theorem test_decode_rst : decodeFrame [0x99] none = .ok .rst := by decide
theorem test_decode_no_instruction :
    decodeFrame [] none = .error .noBytes ∧ decodeFrame [0x9F] none = .error (.unknownOpcode 0x9F) ∧
    decodeFrame [0x20, 0x01, 0x23] none = .error .truncatedAddress ∧
    decodeFrame [0x06, 0x00] none = .error .trailingBytes ∧
    decodeFrame [0x06] (some 1) = .error .wrongReceivePart := by decide
theorem test_decode_setWriteEnable :
    decodeCommand Cfg.default ⟨0x00ABCDEF, 7, []⟩ = .ok (.setWriteEnable 0xABCDEF 7) := by decide
theorem test_decode_setWriteDisable : decodeCommand Cfg.default ⟨0x10000000, 0, []⟩ = .ok (.setWriteDisable 0 0) := by
  decide
theorem test_decode_queryBusy : decodeCommand Cfg.default ⟨0x20000000, 0, []⟩ = .ok (.queryBusy 0 0) := by decide
theorem test_decode_readStatusSnapshot :
    decodeCommand Cfg.default ⟨0x30000000, 0, []⟩ = .ok (.readStatusSnapshot 0 0) := by decide
theorem test_decode_eraseSector :
    decodeCommand Cfg.default ⟨0x40FFFFFF, 0, []⟩ = .ok (.eraseSector 0xFFFFFF 0) := by decide
theorem test_decode_eraseChip : decodeCommand Cfg.default ⟨0x50000000, 0, []⟩ = .ok (.eraseChip 0 0) := by decide
theorem test_decode_programPage :
    decodeCommand Cfg.default ⟨0x60002000, 4, [0xDE, 0xAD, 0xBE, 0xEF]⟩ =
      .ok (.programPage 0x002000 4 [0xDE, 0xAD, 0xBE, 0xEF]) := by decide
theorem test_decode_readData : decodeCommand Cfg.default ⟨0x70000100, 3, []⟩ = .ok (.readData 0x000100 3) := by decide
theorem test_decode_resetDevice : decodeCommand Cfg.default ⟨0x80000000, 0, []⟩ = .ok (.resetDevice 0 0) := by decide
theorem test_decode_illegal :
    decodeCommand Cfg.default ⟨0x90000000, 0, []⟩ = .error .reservedCmd ∧
    decodeCommand Cfg.default ⟨0xF0000000, 0, []⟩ = .error .reservedCmd ∧
    decodeCommand Cfg.default ⟨0x01000000, 0, []⟩ = .error .reservedBits ∧
    decodeCommand Cfg.default ⟨0x4F012345, 0, []⟩ = .error .reservedBits ∧
    decodeCommand Cfg.default ⟨0x8FFFFFFF, 0, []⟩ = .error .reservedBits := by decide
theorem test_decodeTableWord :
    decodeTableWord 8 0x06 = some .wren ∧ decodeTableWord 8 0x02 = some (.pp 0 []) ∧
    decodeTableWord 8 0x03 = some (.read 0 0) ∧ decodeTableWord 8 0x07 = none ∧
    decodeTableWord 32 0x40000000 = some (.eraseSector 0 0) ∧ decodeTableWord 32 0x80000000 = some (.resetDevice 0 0) ∧
    decodeTableWord 32 0x90000000 = none := by decide
theorem test_withFetchWord_pp :
    step (State.reset.withFetchWord 8 0x02) = exec (.pp 0 []) (State.reset.withFetchWord 8 0x02) := rfl
theorem test_withFetchWord_read :
    step (State.reset.withFetchWord 8 0x03) = exec (.read 0 0) (State.reset.withFetchWord 8 0x03) := rfl
theorem test_withFetchWord_eraseSector :
    step (State.reset.withFetchWord 32 0x40000000) = exec (.eraseSector 0 0) (State.reset.withFetchWord 32 0x40000000) :=
  rfl

/-! ## One step of each instruction -/

theorem test_step_wren :
    see State.trace (exec .wren (runAt .setWriteEnable 0 0 none 1 .tx [.ok []])) = some [.tx [0x06] .ok] := by decide
theorem test_step_wren_deselect :
    see (fun t => (t.trace, t.blk.phase, t.blk.upc)) (exec .wren (runAt .setWriteEnable 0 0 none 1 .desel [])) =
      some ([.desel, .resp ⟨.ok, none, none, none, none, none⟩], .idle, some 2) := by decide
theorem test_step_wrdi :
    see (fun t => (t.trace, t.blk.fstep)) (exec .wrdi (runAt .setWriteDisable 0 0 none 0 .tx [.err ⟨7⟩ 0])) =
      some ([.tx [0x04] (.err ⟨7⟩)], some .desel) := by decide
theorem test_step_rdsr1_receive :
    see (fun t => (t.trace, t.blk.rxbuf)) (exec .rdsr1 (runAt .queryBusy 0 0 none 0 .rx [.ok [0x03]])) =
      some ([.rx 1 (.ok [0x03])], some [0x03]) := by decide
theorem test_step_rdsr1_busy_poll :
    see (fun t => (t.trace, t.blk.upc, t.blk.fstep, t.blk.polls, t.blk.cs))
      (exec .rdsr1 (let s := runAt .setWriteEnable 0 0 none 0 .desel []
        { s with blk := { s.blk with rxbuf := some [0x01] } })) =
      some ([.desel], some 0, some .sel, 1, false) := by decide
theorem test_step_rdsr2 :
    see (fun t => (t.trace, t.blk.sr2))
      (exec .rdsr2 (let s := runAt .readStatusSnapshot 0 0 none 1 .desel []
        { s with blk := { s.blk with sr1 := some 0x00, rxbuf := some [0x02] } })) =
      some ([.desel, .resp ⟨.ok, none, none, some 0x00, some 0x02, none⟩], some 0x02) := by decide
theorem test_step_pp :
    see State.trace (exec (.pp 0x0000FF [0x01, 0x02]) (runAt .programPage 0x0000FF 2 (some [0x01, 0x02]) 3 .tx [.ok []])) =
      some [.tx [0x02, 0x00, 0x00, 0xFF, 0x01, 0x02] .ok] := by decide
theorem test_step_read_transmit :
    see (fun t => (t.trace, t.blk.fstep)) (exec (.read 0xFFFFFE 2) (runAt .readData 0xFFFFFE 2 none 1 .tx [.ok []])) =
      some ([.tx [0x03, 0xFF, 0xFF, 0xFE] .ok], some .rx) := by decide
theorem test_step_read_zero_bytes :
    see (fun t => (t.trace, t.blk.rxbuf)) (exec (.read 0 0) (runAt .readData 0 0 none 1 .rx [.ok []])) =
      some ([.rx 0 (.ok [])], some []) := by decide
theorem test_step_se :
    see State.trace (exec (.se 0x012345) (runAt .eraseSector 0x012345 0 none 3 .tx [.ok []])) =
      some [.tx [0x20, 0x01, 0x23, 0x45] .ok] := by decide
theorem test_step_ce :
    see State.trace (exec .ce (runAt .eraseChip 0 0 none 3 .tx [.ok []])) = some [.tx [0xC7] .ok] := by decide
theorem test_step_rsten_advances :
    see (fun t => (t.trace, t.blk.phase, t.blk.upc, t.blk.fstep)) (exec .rsten (runAt .resetDevice 0 0 none 0 .desel [])) =
      some ([.desel], .run, some 1, some .sel) := by decide
theorem test_step_rst :
    see State.trace (exec .rst (runAt .resetDevice 0 0 none 1 .tx [.ok []])) = some [.tx [0x99] .ok] := by decide
theorem test_step_host_commands :
    see State.trace (step (idle [⟨0x00ABCDEF, 7, []⟩] [])) = some [.cmd 0x00ABCDEF 7 []] ∧
    see State.trace (step (idle [⟨0x10000000, 0, []⟩] [])) = some [.cmd 0x10000000 0 []] ∧
    see State.trace (step (idle [⟨0x20000000, 0, []⟩] [])) = some [.cmd 0x20000000 0 []] ∧
    see State.trace (step (idle [⟨0x30000000, 0, []⟩] [])) = some [.cmd 0x30000000 0 []] ∧
    see State.trace (step (idle [⟨0x40012345, 0, []⟩] [])) = some [.cmd 0x40012345 0 []] ∧
    see State.trace (step (idle [⟨0x50000000, 0, []⟩] [])) = some [.cmd 0x50000000 0 []] ∧
    see State.trace (step (idle [⟨0x60002000, 2, [0xDE, 0xAD]⟩] [])) = some [.cmd 0x60002000 2 [0xDE, 0xAD]] ∧
    see State.trace (step (idle [⟨0x70000100, 3, []⟩] [])) = some [.cmd 0x70000100 3 []] ∧
    see State.trace (step (idle [⟨0x80000000, 0, []⟩] [])) = some [.cmd 0x80000000 0 []] := by decide
theorem test_step_accepts_programPage :
    see (fun t => (t.blk.addr, t.blk.len, t.blk.payload)) (step (idle [⟨0x60002000, 2, [0xDE, 0xAD]⟩] [])) =
      some (some 0x002000, some 2, some [0xDE, 0xAD]) := by decide
theorem test_step_accepts_readData :
    see (fun t => (t.blk.addr, t.blk.len, t.blk.payload)) (step (idle [⟨0x70000100, 3, []⟩] [])) =
      some (some 0x000100, some 3, none) := by decide
theorem test_step_illegal :
    see State.trace (step (idle [⟨0x8FFFFFFF, 0, []⟩] [])) =
      some [.cmd 0x8FFFFFFF 0 [], .resp ⟨.illegalCommand, none, none, none, none, none⟩] := by decide
theorem test_step_block_reset :
    see (fun t => (t.trace, t.blk)) (step { runAt .eraseSector 0 0 none 2 .tx [] with resetPin := true }) =
      some ([.desel], State.reset.blk) := by decide
theorem test_device_wren_pp :
    ({ world false [] with wire := [0x06] } : World).deselect.dev.wel = true ∧
    ({ world true [] with wire := [0x02, 0x00, 0x20, 0x00, 0xDE] } : World).deselect.dev.pending =
      some (.program 0x002000 [0xDE]) ∧
    ({ world false [] with wire := [0xC7] } : World).deselect.dev.busy = false := by decide
/-- R169, R170 and item 32: RSTEN is outstanding until the next instruction, and not after RST or a truncated frame. -/
theorem test_device_rsten_outstanding :
    (Device.reset.frameEnd 7 [0x66]).armed = true ∧
    ((Device.reset.frameEnd 7 [0x66]).frameEnd 7 [0x99]).armed = false ∧
    ((Device.reset.frameEnd 7 [0x66]).frameEnd 7 [0x04]).armed = false ∧
    (Device.reset.frameEnd 7 [0x20, 0x01]).armed = false := by decide
theorem test_sector_and_page_base :
    sectorBase 0x012345 = 0x012000 ∧ pageBase 0x012345 = 0x012300 ∧ sectorBase 0xFFFFFF = 0xFFF000 := by decide

/-! ## Witnesses: a state and operands that meet the hypotheses of each obligation -/

theorem witness_DecodeOfEncodeIsTheInstruction :
    Instr.wf cfg8 (.programPage 0xFFFFFF 2 [0x01, 0x02]) = true ∧ Instr.wf cfg8 (.read 0 255) = true ∧
    Instr.wf cfg8 .wren = true := by decide

theorem witness_FrameIsTheEncodingOfItsInstruction :
    decodeFrame [0x03, 0xFF, 0xFF, 0xFF] (some 0) = .ok (.read 0xFFFFFF 0) := by decide

theorem witness_CommandIsTheEncodingOfItsInstruction :
    decodeCommand cfg8 ⟨0x60FFFFFF, 1, [0xFF]⟩ = .ok (.programPage 0xFFFFFF 1 [0xFF]) := by decide

theorem witness_FrameLengthsFollowFromTheOpcode :
    encode .wren = .frame [0x06] none ∧ encode .wrdi = .frame [0x04] none ∧ encode .ce = .frame [0xC7] none ∧
    encode .rsten = .frame [0x66] none ∧ encode .rst = .frame [0x99] none ∧
    encode .rdsr1 = .frame [0x05] (some 1) ∧ encode .rdsr2 = .frame [0x35] (some 1) ∧
    encode (.se 0xFFFFFF) = .frame [0x20, 0xFF, 0xFF, 0xFF] none ∧
    encode (.pp 0 []) = .frame [0x02, 0x00, 0x00, 0x00] none ∧
    encode (.read 0 0) = .frame [0x03, 0x00, 0x00, 0x00] (some 0) := by decide

theorem witness_IdleDrivesNoEvent :
    State.reset.resetPin = false ∧ State.reset.blk.phase = .idle ∧ State.reset.host = [] := by decide

theorem witness_StepRunsThePresentedCommand :
    let s := idle [⟨0x80000000, 0, []⟩] []
    s.resetPin = false ∧ s.blk.phase = .idle ∧ s.host = [⟨0x80000000, 0, []⟩] ∧
    decodeCommand s.cfg ⟨0x80000000, 0, []⟩ = .ok (.resetDevice 0 0) := by decide

theorem witness_StepRunsTheFetchedWireInstruction :
    let s := runAt .readData 0xFFFFFE 2 none 1 .rx [.ok [1, 2]]
    let m : MicroOp := .frame [0x03, 0xFF, 0xFF, 0xFE] (some 2) .rd
    s.resetPin = false ∧ s.blk.phase = .run ∧ s.blk.current = .ok (at_ m 1 2) ∧
    decodeFrame m.tx m.rx = .ok (.read 0xFFFFFE 2) := by decide

theorem witness_IllegalWordIsAnswered :
    let w1 : CmdWord := 0x90000000
    let w2 : CmdWord := 0xF0000000
    let w3 : CmdWord := 0x01000000
    let s := idle [⟨w1, 0, []⟩] []
    s.resetPin = false ∧ s.blk.phase = .idle ∧ s.host = [⟨w1, 0, []⟩] ∧ 0 < 2 ^ s.cfg.lenBits ∧
    9 ≤ (w1.extractLsb' 28 4).toNat ∧ 9 ≤ (w2.extractLsb' 28 4).toNat ∧ w3.extractLsb' 24 4 ≠ 0 := by decide

/-- One witness for each of the three clauses: LEN 2^LEN_BITS, a payload one byte short, and a payload with CMD 0 and CMD 8. -/
theorem witness_UnpresentableCommandIsRefused :
    let s := idle [⟨0x70000000, 2 ^ 32, []⟩] []
    let w0 : CmdWord := 0x00000000
    let w6 : CmdWord := 0x60000000
    let w8 : CmdWord := 0x80000000
    (s.resetPin = false ∧ s.blk.phase = .idle ∧ s.host = [⟨0x70000000, 2 ^ 32, []⟩] ∧ 2 ^ s.cfg.lenBits ≤ 2 ^ 32) ∧
    (1 < 2 ^ s.cfg.lenBits ∧ w6.extractLsb' 24 4 = 0 ∧ w6.extractLsb' 28 4 = 6 ∧ ([] : List Byte).length ≠ 1) ∧
    (w0.extractLsb' 24 4 = 0 ∧ (w0.extractLsb' 28 4).toNat < 9 ∧ w0.extractLsb' 28 4 ≠ 6) ∧
    (w8.extractLsb' 24 4 = 0 ∧ (w8.extractLsb' 28 4).toNat < 9 ∧ w8.extractLsb' 28 4 ≠ 6 ∧ [(0x01 : Byte)] ≠ []) := by
  decide

theorem witness_BlockResetEndsTheOperation :
    let s := { runAt .eraseSector 0 0 none 2 .tx [] with resetPin := true }
    let s' := { State.reset with resetPin := true }
    (s.resetPin = true ∧ s.blk.cs = true) ∧ s'.resetPin = true ∧ s'.blk.cs = false := by decide

theorem witness_HostCommandsAreAccepted : State.reset.blk.phase = .idle := rfl

theorem witness_NoCommandWhileRunning :
    let s := runAt .setWriteEnable 0 0 none 0 .sel []
    s.blk.phase = .run ∧ (Instr.resetDevice 0 0).hostOp? ≠ none ∧
    see State.trace (step s) = some [.sel] := by decide

/-- The second block still holds what a finished readData left. -/
theorem witness_NothingCarriesOverBetweenOperations :
    let s1 := idle [] []
    let s2 := { s1 with blk := { s1.blk with op := some .readData, upc := some 2, rdata := some [1, 2, 3], rxbuf := some [1, 2, 3] } }
    (Instr.queryBusy 0 0).hostOp? ≠ none ∧ s1.blk.phase = .idle ∧ s2.blk.phase = .idle ∧ s1.blk.cs = s2.blk.cs ∧
    s1.world = s2.world ∧ s1.trace = s2.trace ∧ s1.host = s2.host ∧ s1.resetPin = s2.resetPin ∧ s1.cfg = s2.cfg ∧
    s1.blk ≠ s2.blk := by decide

/-- The hypotheses of SendFrameCompletes. -/
def SendHyps (i : Instr) (s : State) (tx : List Byte) (c : Current) : Prop :=
  Sends i ∧ encode i = .frame tx none ∧ s.blk.phase = .run ∧ s.blk.fstep = some .sel ∧ s.blk.pend = none ∧
  s.blk.current = .ok c ∧ c.mop = .frame tx none .none ∧ (s.world.select s.cfg).txResult = .ok

/-- Each of the seven instructions, the operand-carrying ones at the ends of their ranges. -/
theorem witness_SendFrameCompletes :
    SendHyps .wren (runAt .eraseChip 0 0 none 1 .sel [.ok []]) [0x06] (at_ (bareFrame opcWREN) 1 4) ∧
    SendHyps .wrdi (runAt .setWriteDisable 0 0 none 0 .sel [.ok []]) [0x04] (at_ (bareFrame opcWRDI) 0 1) ∧
    SendHyps (.pp 0x123456 []) (runAt .programPage 0x123456 0 (some []) 3 .sel [.ok []]) [0x02, 0x12, 0x34, 0x56]
      (at_ (.frame [0x02, 0x12, 0x34, 0x56] none .none) 3 4) ∧
    SendHyps (.pp 0xFFFFFF [1, 2]) (runAt .programPage 0xFFFFFF 2 (some [1, 2]) 3 .sel [.ok []])
      [0x02, 0xFF, 0xFF, 0xFF, 1, 2] (at_ (.frame [0x02, 0xFF, 0xFF, 0xFF, 1, 2] none .none) 3 4) ∧
    SendHyps (.se 0x000FFF) (runAt .eraseSector 0x000FFF 0 none 3 .sel [.ok []]) [0x20, 0x00, 0x0F, 0xFF]
      (at_ (.frame [0x20, 0x00, 0x0F, 0xFF] none .none) 3 4) ∧
    SendHyps .ce (runAt .eraseChip 0 0 none 3 .sel [.ok []]) [0xC7] (at_ (bareFrame opcCE) 3 4) ∧
    SendHyps .rsten (runAt .resetDevice 0 0 none 0 .sel [.ok []]) [0x66] (at_ (bareFrame opcRSTEN) 0 2) ∧
    SendHyps .rst (runAt .resetDevice 0 0 none 1 .sel [.ok []]) [0x99] (at_ (bareFrame opcRST) 1 2) := by
  refine ⟨?_, ?_, ?_, ?_, ?_, ?_, ?_, ?_⟩ <;> exact ⟨by simp [Sends], rfl, rfl, rfl, rfl, rfl, rfl, rfl⟩

/-- The hypotheses of ReceiveFrameCompletes. -/
def ReceiveHyps (i : Instr) (s : State) (tx : List Byte) (n : Nat) (dst : Dst) (c : Current) (bs : List Byte) : Prop :=
  Receives i ∧ encode i = .frame tx (some n) ∧ s.blk.phase = .run ∧ s.blk.fstep = some .sel ∧ s.blk.pend = none ∧
  s.blk.current = .ok c ∧ c.mop = .frame tx (some n) dst ∧ (dst = .rd ∨ n = 1) ∧
  (s.world.select s.cfg).txResult = .ok ∧ ((s.world.select s.cfg).transmit tx).rxResult s.cfg n = .ok bs

/-- Each destination, and READ of no byte and of three. -/
theorem witness_ReceiveFrameCompletes :
    ReceiveHyps .rdsr1 (runAt .queryBusy 0 0 none 0 .sel [.ok [], .ok [0xFF]]) [0x05] 1 .bq
      (at_ (.frame [0x05] (some 1) .bq) 0 1) [0xFF] ∧
    ReceiveHyps .rdsr1 (runAt .readStatusSnapshot 0 0 none 0 .sel [.ok [], .ok [0x00]]) [0x05] 1 .sr1
      (at_ (.frame [0x05] (some 1) .sr1) 0 2) [0x00] ∧
    ReceiveHyps .rdsr2 (runAt .readStatusSnapshot 0 0 none 1 .sel [.ok [], .ok [0x02]]) [0x35] 1 .sr2
      (at_ (.frame [0x35] (some 1) .sr2) 1 2) [0x02] ∧
    ReceiveHyps (.read 0 0) (runAt .readData 0 0 none 1 .sel [.ok [], .ok []]) [0x03, 0, 0, 0] 0 .rd
      (at_ (.frame [0x03, 0, 0, 0] (some 0) .rd) 1 2) [] ∧
    ReceiveHyps (.read 0x000100 3) (runAt .readData 0x000100 3 none 1 .sel [.ok [], .ok [0x11, 0x22, 0x33]])
      [0x03, 0, 1, 0] 3 .rd (at_ (.frame [0x03, 0, 1, 0] (some 3) .rd) 1 2) [0x11, 0x22, 0x33] := by
  refine ⟨?_, ?_, ?_, ?_, ?_⟩ <;> exact ⟨by simp [Receives], rfl, rfl, rfl, rfl, rfl, rfl, by simp, rfl, rfl⟩

/-- The hypotheses of PollFrameDecidesTheWait. -/
def PollHyps (s : State) (c : Current) (b : Byte) : Prop :=
  s.blk.phase = .run ∧ s.blk.fstep = some .sel ∧ s.blk.pend = none ∧ s.blk.current = .ok c ∧ c.mop = .waitIdle ∧
  (s.world.select s.cfg).txResult = .ok ∧ ((s.world.select s.cfg).transmit [0x05]).rxResult s.cfg 1 = .ok [b]

/-- One witness a clause: NotBusy (0xFE), Busy with no limit (0x01), Busy below the limit 2, and Busy at the limit 1. -/
theorem witness_PollFrameDecidesTheWait :
    (PollHyps (runAt .eraseSector 0 0 none 2 .sel [.ok [], .ok [0xFE]]) (at_ .waitIdle 2 4) 0xFE ∧
      (0xFE : Byte).getLsbD 0 = false) ∧
    (PollHyps (runAt .readData 0 0 none 0 .sel [.ok [], .ok [0x01]]) (at_ .waitIdle 0 2) 0x01 ∧
      (0x01 : Byte).getLsbD 0 = true ∧ (runAt .readData 0 0 none 0 .sel []).cfg.pollLimit = none) ∧
    (PollHyps (limited 2 (runAt .readData 0 0 none 0 .sel [.ok [], .ok [0x01]])) (at_ .waitIdle 0 2) 0x01 ∧ 0 + 1 < 2) ∧
    (PollHyps (limited 1 (runAt .readData 0 0 none 0 .sel [.ok [], .ok [0x01]])) (at_ .waitIdle 0 2) 0x01 ∧ 1 ≤ 0 + 1) := by
  refine ⟨⟨?_, rfl⟩, ⟨?_, rfl, rfl⟩, ⟨?_, by decide⟩, ⟨?_, by decide⟩⟩ <;> exact ⟨rfl, rfl, rfl, rfl, rfl, rfl, rfl⟩

/-- The hypotheses of TransmitErrorAborts. -/
def TxErrHyps (i : Instr) (s : State) (tx : List Byte) (rx : Option Nat) (e : TErr) : Prop :=
  IsWire i ∧ encode i = .frame tx rx ∧ s.blk.phase = .run ∧ s.blk.fstep = some .tx ∧ s.world.txResult = .err e

/-- Each of the ten instructions, with none, part and all of the frame on the device. -/
theorem witness_TransmitErrorAborts :
    TxErrHyps .wren (runAt .setWriteEnable 0 0 none 1 .tx [.err ⟨1⟩ 0]) [0x06] none ⟨1⟩ ∧
    TxErrHyps .wrdi (runAt .setWriteDisable 0 0 none 0 .tx [.err ⟨1⟩ 1]) [0x04] none ⟨1⟩ ∧
    TxErrHyps .rdsr1 (runAt .setWriteEnable 0 0 none 0 .tx [.err ⟨1⟩ 0]) [0x05] (some 1) ⟨1⟩ ∧
    TxErrHyps .rdsr2 (runAt .readStatusSnapshot 0 0 none 1 .tx [.err ⟨1⟩ 0]) [0x35] (some 1) ⟨1⟩ ∧
    TxErrHyps (.pp 1 [9]) (runAt .programPage 1 1 (some [9]) 3 .tx [.err ⟨2⟩ 3]) [0x02, 0, 0, 1, 9] none ⟨2⟩ ∧
    TxErrHyps (.read 0 4) (runAt .readData 0 4 none 1 .tx [.err ⟨1⟩ 4]) [0x03, 0, 0, 0] (some 4) ⟨1⟩ ∧
    TxErrHyps (.se 0x012345) (runAt .eraseSector 0x012345 0 none 3 .tx [.err ⟨1⟩ 2]) [0x20, 1, 0x23, 0x45] none ⟨1⟩ ∧
    TxErrHyps .ce (runAt .eraseChip 0 0 none 3 .tx [.err ⟨1⟩ 0]) [0xC7] none ⟨1⟩ ∧
    TxErrHyps .rsten (runAt .resetDevice 0 0 none 0 .tx [.err ⟨1⟩ 0]) [0x66] none ⟨1⟩ ∧
    TxErrHyps .rst (runAt .resetDevice 0 0 none 1 .tx [.err ⟨1⟩ 0]) [0x99] none ⟨1⟩ := by
  refine ⟨?_, ?_, ?_, ?_, ?_, ?_, ?_, ?_, ?_, ?_⟩ <;> exact ⟨by simp [IsWire, Sends, Receives], rfl, rfl, rfl, rfl⟩

/-- The hypotheses of ReceiveErrorAborts. -/
def RxErrHyps (i : Instr) (s : State) (tx : List Byte) (n : Nat) (e : TErr) : Prop :=
  Receives i ∧ encode i = .frame tx (some n) ∧ s.blk.phase = .run ∧ s.blk.fstep = some .rx ∧
  s.world.rxResult s.cfg n = .err e

theorem witness_ReceiveErrorAborts :
    RxErrHyps .rdsr1 (runAt .queryBusy 0 0 none 0 .rx [.err ⟨1⟩ 0]) [0x05] 1 ⟨1⟩ ∧
    RxErrHyps .rdsr2 (runAt .readStatusSnapshot 0 0 none 1 .rx [.err ⟨1⟩ 0]) [0x35] 1 ⟨1⟩ ∧
    RxErrHyps (.read 0 0) (runAt .readData 0 0 none 1 .rx [.err ⟨1⟩ 0]) [0x03, 0, 0, 0] 0 ⟨1⟩ := by
  refine ⟨?_, ?_, ?_⟩ <;> exact ⟨by simp [Receives], rfl, rfl, rfl, rfl⟩

theorem witness_NoWireInstructionWhileIdle :
    IsWire .wren ∧ IsWire .rst ∧ IsWire (.pp 0 []) ∧ IsWire (.read 0 0) ∧ State.reset.blk.phase = .idle := by
  refine ⟨?_, ?_, ?_, ?_, rfl⟩ <;> simp [IsWire, Sends, Receives]

/-! ### Whole operations -/

/-- A machine that has just accepted a command from the reset state. -/
theorem started (op : HostOp) (a : Addr) (n : Nat) (pl : Option (List Byte)) (as : List Answer) :
    Started op a n pl (idle [] as) (accepted op a n pl (idle [] as)) := by
  refine ⟨?_, rfl, rfl, rfl⟩
  constructor <;> first | rfl | exact ⟨rfl, rfl, rfl, rfl, rfl⟩

/-- The same with a POLL_LIMIT. -/
theorem started_limited (l : Nat) (op : HostOp) (a : Addr) (n : Nat) (pl : Option (List Byte)) (as : List Answer) :
    Started op a n pl (limited l (idle [] as)) (accepted op a n pl (limited l (idle [] as))) := by
  refine ⟨?_, rfl, rfl, rfl⟩
  constructor <;> first | rfl | exact ⟨rfl, rfl, rfl, rfl, rfl⟩

/-- SWE-2 and SWE-7: two Busy polls, then 0xFE, with POLL_LIMIT 3 exactly. -/
theorem witness_SetWriteEnableRun :
    let as := pollAnswers [0x01, 0xFF] ++ pollAnswers [0xFE] ++ [.ok []]
    let s := limited 3 (idle [] as)
    Started .setWriteEnable 0xABCDEF 7 none s (accepted .setWriteEnable 0xABCDEF 7 none s) ∧
    (∀ l, s.cfg.pollLimit = some l → [(0x01 : Byte), 0xFF].length + 1 ≤ l) ∧
    (∀ y ∈ [(0x01 : Byte), 0xFF], saysBusy y) ∧ saysIdle 0xFE ∧
    s.world.answers = pollAnswers [0x01, 0xFF] ++ pollAnswers [0xFE] ++ .ok [] :: [] := by
  refine ⟨started_limited _ _ _ _ _ _, ?_, by simp [saysBusy], rfl, rfl⟩
  intro l h; cases h; decide

/-- SWD-1 with the device busy, and SWD-2. -/
theorem witness_SetWriteDisableRun :
    (let s := { idle [] [] with world := { world true [.ok []] with dev := { Device.reset with pending := some .eraseChip } } }
     Accepted .setWriteDisable 0 0 none s (accepted .setWriteDisable 0 0 none s) ∧ s.resetPin = false ∧
     s.blk.cs = false ∧ s.world.answers = .ok [] :: [] ∧ s.world.dev.busy = true) ∧
    (let s := idle [] [.err ⟨5⟩ 0]
     Accepted .setWriteDisable 0 0 none s (accepted .setWriteDisable 0 0 none s) ∧ s.resetPin = false ∧
     s.blk.cs = false ∧ s.world.answers = .err ⟨5⟩ 0 :: []) := by
  refine ⟨⟨?_, rfl, rfl, rfl, rfl⟩, (started _ _ _ _ _).accepted, rfl, rfl, rfl⟩
  constructor <;> first | rfl | exact ⟨rfl, rfl, rfl, rfl, rfl⟩

theorem witness_QueryBusyRun :
    let as : List Answer := [.ok [], .ok [0xFE]]
    Started .queryBusy 0 0 none (idle [] as) (accepted .queryBusy 0 0 none (idle [] as)) ∧
    (idle [] as).world.answers = .ok [] :: .ok [0xFE] :: [] :=
  ⟨started _ _ _ _ _, rfl⟩

theorem witness_ReadStatusSnapshotRun :
    let as : List Answer := [.ok [], .ok [0x00], .ok [], .ok [0x02]]
    Started .readStatusSnapshot 0 0 none (idle [] as) (accepted .readStatusSnapshot 0 0 none (idle [] as)) ∧
    (idle [] as).world.answers = .ok [] :: .ok [0x00] :: .ok [] :: .ok [0x02] :: [] :=
  ⟨started _ _ _ _ _, rfl⟩

theorem witness_SnapshotAbortReturnsNoByte :
    let as : List Answer := [.ok [], .err ⟨9⟩ 0]
    Started .readStatusSnapshot 0 0 none (idle [] as) (accepted .readStatusSnapshot 0 0 none (idle [] as)) ∧
    (idle [] as).world.answers = .ok [] :: .err ⟨9⟩ 0 :: [] :=
  ⟨started _ _ _ _ _, rfl⟩

/-- ES-2 (K1 = 1, K2 = 2), and each of the three operations. -/
theorem witness_WriteClassRun :
    let as := pollAnswers [0x01] ++ pollAnswers [0x00] ++ .ok [] :: (pollAnswers [0x01, 0x01] ++ pollAnswers [0x00] ++ [.ok []])
    (Started .eraseSector 0x000FFF 0 none (idle [] as) (accepted .eraseSector 0x000FFF 0 none (idle [] as)) ∧
     Started .eraseChip 0 0 none (idle [] as) (accepted .eraseChip 0 0 none (idle [] as)) ∧
     Started .programPage 0x123456 0 (some []) (idle [] as) (accepted .programPage 0x123456 0 (some []) (idle [] as))) ∧
    (∀ l, (idle [] as).cfg.pollLimit = some l → [(0x01 : Byte)].length + 1 ≤ l ∧ [(0x01 : Byte), 0x01].length + 1 ≤ l) ∧
    (∀ z ∈ [(0x01 : Byte)] ++ [0x01, 0x01], saysBusy z) ∧ saysIdle 0x00 ∧
    (idle [] as).world.answers =
      pollAnswers [0x01] ++ pollAnswers [0x00] ++ .ok [] :: (pollAnswers [0x01, 0x01] ++ pollAnswers [0x00] ++ .ok [] :: []) := by
  refine ⟨⟨started _ _ _ _ _, started _ _ _ _ _, started _ _ _ _ _⟩, ?_, by simp [saysBusy], rfl, rfl⟩
  intro l h; cases h

/-- RD-2 (no byte) and RD-1 (three bytes). -/
theorem witness_ReadDataRun :
    (let as := pollAnswers [] ++ pollAnswers [0x00] ++ .ok [] :: .ok [] :: []
     Started .readData 0 ([] : List Byte).length none (idle [] as) (accepted .readData 0 0 none (idle [] as)) ∧
     (∀ l, (idle [] as).cfg.pollLimit = some l → ([] : List Byte).length + 1 ≤ l) ∧ saysIdle 0x00 ∧
     (idle [] as).world.answers = as) ∧
    (let as := pollAnswers [0x01] ++ pollAnswers [0x00] ++ .ok [] :: .ok [0x11, 0x22, 0x33] :: []
     Started .readData 0x000100 [(0x11 : Byte), 0x22, 0x33].length none (idle [] as)
       (accepted .readData 0x000100 3 none (idle [] as)) ∧ saysBusy 0x01 ∧ (idle [] as).world.answers = as) := by
  refine ⟨⟨started _ _ _ _ _, ?_, rfl, rfl⟩, started _ _ _ _ _, rfl, rfl⟩
  intro l h; cases h

theorem witness_ResetDeviceRun :
    let as : List Answer := [.ok [], .ok []]
    Accepted .resetDevice 0 0 none (idle [] as) (accepted .resetDevice 0 0 none (idle [] as)) ∧
    (idle [] as).resetPin = false ∧ (idle [] as).blk.cs = false ∧
    (idle [] as).world.answers = .ok [] :: .ok [] :: [] :=
  ⟨(started _ _ _ _ _).accepted, rfl, rfl, rfl⟩

/-- ES-5 and SWE-6: POLL_LIMIT 2 and 1. -/
theorem witness_PollLimitEndsTheWait :
    (let s := limited 2 (idle [] (pollAnswers [0x01, 0x01] ++ []))
     Waits .eraseSector ∧ Started .eraseSector 0 0 none s (accepted .eraseSector 0 0 none s) ∧
     s.cfg.pollLimit = some [(0x01 : Byte), 0x01].length ∧ (∀ y ∈ [(0x01 : Byte), 0x01], saysBusy y) ∧
     s.world.answers = pollAnswers [0x01, 0x01] ++ []) ∧
    (let s := limited 1 (idle [] (pollAnswers [0xFF] ++ []))
     Waits .programPage ∧ (some [(0x5A : Byte)] ≠ none) ∧
     Started .programPage 0 1 (some [0x5A]) s (accepted .programPage 0 1 (some [0x5A]) s) ∧
     s.cfg.pollLimit = some [(0xFF : Byte)].length ∧ [(0xFF : Byte)] ≠ [] ∧ saysBusy 0xFF) := by
  refine ⟨⟨by simp [Waits], started_limited _ _ _ _ _ _, rfl, by simp [saysBusy], rfl⟩,
    by simp [Waits], by simp, started_limited _ _ _ _ _ _, rfl, by simp, rfl⟩

/-- SWE-9, for two polls. -/
theorem witness_UnboundedWaitNeverEndsWhileBusy :
    let s := idle [] (pollAnswers [0x01, 0x03] ++ [])
    Waits .readData ∧ (HostOp.readData = .programPage → (none : Option (List Byte)) ≠ none) ∧
    Started .readData 0 0 none s (accepted .readData 0 0 none s) ∧ s.cfg.pollLimit = none ∧
    (∀ y ∈ [(0x01 : Byte), 0x03], saysBusy y) ∧ s.world.answers = pollAnswers [0x01, 0x03] ++ [] := by
  refine ⟨by simp [Waits], by simp, started _ _ _ _ _, rfl, by simp [saysBusy], rfl⟩

/-! ### The machine as a whole -/

/-- Both clauses: setWriteDisable ends with its response, setWriteEnable is still polling after one Busy poll. -/
theorem witness_StepMachineRunsThePseudocode :
    (let s := idle [] [.ok []]
     let s0 := accepted .setWriteDisable 0 0 none s
     Accepted .setWriteDisable 0 0 none s s0 ∧ s.resetPin = false ∧ s.blk.cs = false ∧
     ∃ r p, Pseudo.result (Pseudo.operation s.cfg 0 .setWriteDisable 0 0 [] ⟨s0.world, s0.trace⟩) = some (r, p)) ∧
    (let s := idle [] (pollAnswers [0x01])
     let s0 := accepted .setWriteEnable 0 0 none s
     Accepted .setWriteEnable 0 0 none s s0 ∧
     ∃ p, Pseudo.operation s.cfg 1 .setWriteEnable 0 0 [] ⟨s0.world, s0.trace⟩ = .polling p) :=
  ⟨⟨(started _ _ _ _ _).accepted, rfl, rfl, _, _, rfl⟩, (started _ _ _ _ _).accepted, _, rfl⟩

/-- A machine inside the WREN frame of setWriteEnable, right after the poll that answered 0x00. -/
def midWren : State :=
  { runAt .setWriteEnable 0 0 none 1 .tx [.ok []] with
    trace := [.cmd 0x00000000 0 [], .sel, .tx [0x05] .ok, .rx 1 (.ok [0x00]), .desel, .sel] }

theorem midWren_inv : midWren.Inv := by
  refine ⟨rfl, rfl, ⟨at_ (bareFrame opcWREN) 1 2, .tx, rfl, rfl, ?_⟩⟩
  constructor
  · exact ⟨fun _ => by decide, fun _ => rfl⟩
  · intro h; exact absurd rfl h
  · intro o h; cases h
  · intro h; cases h
  · intro n h; cases h
  · intro _; rfl
  · intro l h; cases h

theorem witness_StepKeepsTheInvariant :
    midWren.Inv ∧ ∃ t, step midWren = .next t := ⟨midWren_inv, _, rfl⟩

/-- An IDLE machine whose host presents a payload with queryBusy meets the invariant too: the other outcome. -/
theorem witness_StepNeverFaults :
    midWren.Inv ∧ (idle [⟨0x20000000, 0, [0x01]⟩] []).Inv ∧
    step (idle [⟨0x20000000, 0, [0x01]⟩] []) = .refused .payloadNotTaken :=
  ⟨midWren_inv, ⟨rfl, rfl, rfl⟩, rfl⟩

theorem witness_StepKeepsTheTraceFramed :
    midWren.Inv ∧ midWren.Framed ∧ ∃ t, step midWren = .next t := ⟨midWren_inv, rfl, _, rfl⟩

theorem witness_GuardedFramesFollowAnIdlePoll :
    midWren.Inv ∧ midWren.Guarded ∧ ∃ t, step midWren = .next t := by
  refine ⟨midWren_inv, ⟨rfl, fun _ c hc => ?_⟩, _, rfl⟩
  have : c = at_ (bareFrame opcWREN) 1 2 := (Except.ok.inj hc).symm
  subst this
  refine ⟨?_, ?_, ?_, ?_⟩
  · intro h; cases h
  · intro _; rfl
  · intro h; cases h
  · intro h; cases h

theorem witness_OneResponsePerCommand :
    midWren.resetPin = false ∧ (∃ t, step midWren = .next t) ∧
    cmdCount midWren.trace = respCount midWren.trace + midWren.blk.phase.owed := ⟨rfl, ⟨_, rfl⟩, rfl⟩

theorem witness_OnlyTheTenOpcodesAreSent :
    see (fun t => decide (Event.tx [0x06] .ok ∈ t.trace)) (step midWren) = some true := by decide

/-- The last event of setWriteEnable, and its response. -/
theorem witness_UpcNeverGoesBack :
    let s := runAt .setWriteEnable 0 0 none 1 .desel []
    s.resetPin = false ∧ s.blk.phase = .run ∧ s.blk.current = .ok (at_ (bareFrame opcWREN) 1 2) ∧ s.blk.pend = none ∧
    see State.trace (step s) = some (s.trace ++ [.desel, .resp ⟨.ok, none, none, none, none, none⟩]) := by decide

theorem witness_NoIndeterminateResponse :
    let s := idle [⟨0x90000000, 0, []⟩] []
    s.Inv ∧ see (fun t => t.trace.length) (step s) = some 2 := ⟨⟨rfl, rfl, rfl⟩, by decide⟩

/-- A Deselect that ends setWriteEnable by POLL_LIMIT 1. -/
theorem witness_ResponseStatusOfEachOperation :
    let s := limited 1 (let s := runAt .setWriteEnable 0 0 none 0 .desel []
      { s with blk := { s.blk with rxbuf := some [0x01] } })
    s.Inv ∧ s.resetPin = false ∧ s.blk.phase = .run ∧ s.blk.op = some .setWriteEnable ∧
    see State.trace (step s) = some (s.trace ++ [.desel, .resp ⟨.pollLimit, none, none, none, none, none⟩]) := by
  refine ⟨⟨rfl, rfl, ⟨at_ .waitIdle 0 2, .desel, rfl, rfl, ?_⟩⟩, rfl, rfl, rfl, by decide⟩
  constructor
  · exact ⟨fun _ => by decide, fun _ => rfl⟩
  · intro h; exact absurd rfl h
  · intro o h; cases h
  · intro h; cases h
  · intro n _ _ h; cases h; exact ⟨[0x01], rfl, rfl⟩
  · intro h; exact absurd rfl h
  · intro l h; cases h; decide

theorem witness_ParametersAreFixed :
    see (fun t => t.host) (step (idle [⟨0x90000000, 0, []⟩] [])) = some [] ∧
    see (fun t => t.host) (step midWren) = some [] := by decide

/-! ### The device -/

theorem witness_WriteEnableLatch :
    (world false []).attached = true ∧ (world false []).dev.armed = false ∧ (world false []).dev.pending = none := by
  decide

/-- Each of the three instructions, with WEL set and clear. -/
theorem witness_ProgramAndEraseNeedWriteEnable :
    ReadyDevice (world true []) ∧ ReadyDevice (world false []) ∧ (world true []).dev.wel = true ∧
    (world false []).dev.wel = false ∧
    [(0x02 : Byte), 0, 0, 0xFF, 0x5A] = 0x02 :: addrBytes 0x0000FF ++ [0x5A] ∧
    [(0x20 : Byte), 1, 0x23, 0x45] = 0x20 :: addrBytes 0x012345 := by
  refine ⟨⟨rfl, rfl, rfl⟩, ⟨rfl, rfl, rfl⟩, rfl, rfl, rfl, rfl⟩

theorem witness_ReadsLeaveTheDevice :
    (world true []).attached = true ∧ (world true []).dev.armed = false ∧ (world true []).dev.pending = none := by decide

theorem witness_FrameEndLeavesEveryByteOfTheArray :
    ReadyDevice (world true []) ∧ IsWire (.pp 0x0000FF [0x5A]) ∧ Instr.pp 0x0000FF [0x5A] ≠ .rst ∧
    encode (.pp 0x0000FF [0x5A]) = .frame [0x02, 0x00, 0x00, 0xFF, 0x5A] none ∧
    IsWire .rsten ∧ Instr.rsten ≠ .rst ∧ encode .rsten = .frame [0x66] none := by
  refine ⟨⟨rfl, rfl, rfl⟩, by simp [IsWire, Sends], by decide, rfl, by simp [IsWire, Sends], by decide, rfl⟩

theorem witness_OracleModeLeavesTheDevice :
    midWren.world.attached = false ∧ ∃ t, step midWren = .next t := ⟨rfl, _, rfl⟩

/-- A READ up to the last byte of the device. -/
theorem witness_DeviceAnswers :
    (world true [.ok []]).attached = true ∧ (world true [.ok []]).dev.armed = false ∧
    (world true [.ok []]).answers = .ok [] :: [] ∧ (world true [.ok []]).dev.pending = none ∧
    (0xFFFFFE : Addr).toNat + 2 ≤ Cfg.default.flashSize.val := by decide

/-- The last byte of a page, the last byte of the device, and no byte at the first and last address. -/
theorem witness_ProgramWritesExactlyItsRange :
    ((0x0000FF : Addr).toNat < Cfg.default.flashSize.val ∧ (0x0000FF : Addr).toNat + 1 ≤ Cfg.default.flashSize.val ∧
      (0x0000FF : Addr).toNat / 256 = ((0x0000FF : Addr).toNat + 1 - 1) / 256) ∧
    ((0xFFFFFF : Addr).toNat < Cfg.default.flashSize.val ∧ (0xFFFFFF : Addr).toNat + 1 ≤ Cfg.default.flashSize.val ∧
      (0xFFFFFF : Addr).toNat / 256 = ((0xFFFFFF : Addr).toNat + 1 - 1) / 256) ∧
    ((0x000000 : Addr).toNat < Cfg.default.flashSize.val ∧ (0xFFFFFF : Addr).toNat + 0 ≤ Cfg.default.flashSize.val ∧
      ([] : List Byte).length = 0) := by decide

/-- PP-4: two bytes from 0x0000FF touch pages 0 and 1; page 2 is left. -/
theorem witness_CrossingProgramLeavesOtherPages :
    [(0x01 : Byte), 0x02] ≠ [] ∧ (0x0000FF : Addr).toNat + 2 ≤ Cfg.default.flashSize.val ∧
    ((0x0000FF : Addr).toNat + 2 - 1) / 256 < 512 / 256 ∧ 255 / 256 < (0x0001FF : Addr).toNat / 256 := by decide

/-- The first and the last sector of the device. -/
theorem witness_EraseClearsItsSectorOrAll :
    (0x000FFF : Addr).toNat / 4096 * 4096 + 4096 ≤ Cfg.default.flashSize.val ∧
    (0xFFFFFF : Addr).toNat / 4096 * 4096 + 4096 ≤ Cfg.default.flashSize.val := by decide

/-- An idle device and a busy one. -/
theorem witness_BusyUntilTheEffectIsComplete :
    (world true []).attached = true ∧ (world true []).dev.pending = none ∧
    ({ world true [] with wire := [0xC7] } : World).deselect.attached = true ∧
    ({ world true [] with wire := [0xC7] } : World).deselect.dev.pending = some .eraseChip := by decide

/-- One byte, and (the first disjunct) none. -/
theorem witness_ReadAfterCompletedProgram :
    (world true []).dev.pending = none ∧ (world true []).dev.armed = false ∧ (world true []).dev.wel = true ∧
    (1 : Nat).testBit 0 = true ∧ (0x002000 : Addr).toNat < Cfg.default.flashSize.val ∧
    (0x002000 : Addr).toNat + 1 ≤ Cfg.default.flashSize.val ∧
    (0x002000 : Addr).toNat / 256 = ((0x002000 : Addr).toNat + 1 - 1) / 256 ∧
    (0x002000 : Addr).toNat + ([] : List Byte).length ≤ Cfg.default.flashSize.val := by decide

/-- ES-3 with two of four bytes on the device, and a Transmit that succeeds. -/
theorem witness_FailedTransmitReachesAPrefix :
    (let s := runAt .eraseSector 0x012345 0 none 3 .tx [.err ⟨1⟩ 2]
     IsWire (.se 0x012345) ∧ encode (.se 0x012345) = .frame [0x20, 0x01, 0x23, 0x45] none ∧ s.blk.phase = .run ∧
     s.blk.fstep = some .tx ∧ s.world.txResult = .err ⟨1⟩ ∧ s.world.attached = false ∧
     { s with world := { s.world with attached := true } }.world.txResult = .err ⟨1⟩) ∧
    (runAt .eraseSector 0x012345 0 none 3 .tx [.ok []]).world.txResult = .ok ∧
    (4 ≤ [(0x20 : Byte), 0x01, 0x23, 0x45].length) := by
  refine ⟨⟨by simp [IsWire, Sends], rfl, rfl, rfl, rfl, rfl, rfl⟩, rfl, by decide⟩

/-- An idle device that has just received RSTEN, and one that received a truncated SE after it. -/
theorem witness_OnlyAnRstenIsOutstanding :
    (Device.reset.frameEnd 0 [0x66]).armed = true ∧
    ((Device.reset.frameEnd 0 [0x66]).frameEnd 0 [0x20, 0x01]).armed = true := by decide

end Sys2Proof.Tests
end

section
/-! What a host command reads of the block that accepts it (R23): chip select and nothing else. -/

namespace Sys2Proof.Machine

/-- A host command's meaning is the acceptance of its operation, with operands that do not depend on the state. -/
theorem exec_eq_accept {i : Instr} {op : HostOp} (h : i.hostOp? = some op) :
    ∃ a n p, ∀ s, exec i s = accept op a n p s := by
  cases i <;> cases h <;> exact ⟨_, _, _, fun _ => rfl⟩

/-- Of the block's fields, acceptance keeps chip select alone (R23). -/
theorem acceptBlock_congr {b1 b2 : Block} (h : b1.cs = b2.cs) (op : HostOp) (a : Addr) (n : Nat)
    (p : Option (List Byte)) : acceptBlock op a n p b1 = acceptBlock op a n p b2 := by
  simp only [acceptBlock, h]

/-- An IDLE block accepts a command (R23). -/
theorem accept_idle {s : State} (h : s.blk.phase = .idle) (op : HostOp) (a : Addr) (n : Nat)
    (p : Option (List Byte)) :
    accept op a n p s = .next { s with
      blk := acceptBlock op a n p s.blk
      trace := s.trace ++ [.cmd (cmdWord op a) n (p.getD [])]
      host := s.host.tail } := by
  simp only [accept, h]

end Sys2Proof.Machine

open Sys2Proof Sys2Proof.Machine

/-- Settles O18: both blocks become the same accepted block, because acceptance keeps only chip select. -/
theorem nothingCarriesOverBetweenOperations : Obligations.NothingCarriesOverBetweenOperations := by
  intro s1 s2 i hi hidle1 hidle2 hcs hworld htrace hhost hpin hcfg
  obtain ⟨op, hop⟩ := Option.ne_none_iff_exists'.mp hi
  obtain ⟨a, n, p, hexec⟩ := exec_eq_accept hop
  rw [hexec, hexec, accept_idle hidle1, accept_idle hidle2, acceptBlock_congr hcs, hworld, htrace, hhost, hpin,
    hcfg]
end

section
/-! What a step can do to the environment: stand still, or one of the five moves of Machine/Transport.lean (R6, R30). -/

namespace Sys2Proof.Machine

/-- The environment after a step, from the environment before it. -/
inductive World.Move (cfg : Cfg) (w : World) : World → Prop
  /-- No transport event. -/
  | stay : World.Move cfg w w
  /-- Select (R33). -/
  | select : World.Move cfg w (w.select cfg)
  /-- Transmit (R34). -/
  | transmit (tx : List Byte) : World.Move cfg w (w.transmit tx)
  /-- Receive (R35). -/
  | receive : World.Move cfg w w.receive
  /-- Deselect (R33). -/
  | deselect : World.Move cfg w w.deselect
  /-- A block reset inside a frame (R291). -/
  | cutShort : World.Move cfg w w.cutShort

@[simp] theorem pollDecision_world (c : Current) (b : BusyState) (s : State) :
    (pollDecision c b s).world = s.world := by
  cases b with
  | notBusy => simp [pollDecision]
  | indeterminate => rfl
  | busy => simp only [pollDecision]; split <;> rfl

/-- Without a pending abort, the end of a frame needs the current micro-operation (R150). -/
theorem pend_of_endFrame {s t : State} {f : Fault} (hc : s.blk.current = .error f) (h : endFrame s = .next t) :
    ∃ o, s.blk.pend = some o ∧ t = finish o (deselect s) := by
  cases hp : s.blk.pend with
  | none => simp [endFrame, hp, hc] at h
  | some o => simp only [endFrame, hp] at h; cases h; exact ⟨o, rfl, rfl⟩

/-- Whatever follows it in the step, the end of a frame moves the environment by its Deselect alone (R134, R150). -/
theorem endFrame_world {s t : State} (h : endFrame s = .next t) : t.world = s.world.deselect := by
  cases hc : s.blk.current with
  | error f => obtain ⟨o, -, rfl⟩ := pend_of_endFrame hc h; simp
  | ok c =>
    obtain ⟨o, -, rfl⟩ | ⟨-, -, x, -, rfl⟩ | ⟨-, tx, rx, dst, b, -, -, rfl⟩ := endFrame_cases hc h <;>
      simp

/-- An event of a frame moves the environment by that event. -/
theorem frameEvent_move {tx : List Byte} {rx : Option Nat} {s t : State} (h : frameEvent tx rx s = .next t) :
    s.world.Move s.cfg t.world := by
  obtain ⟨-, ⟨-, rfl⟩ | ⟨-, rfl⟩ | ⟨n, -, -, rfl⟩ | ⟨-, hend⟩⟩ := frameEvent_cases h
  · exact .select
  · exact .transmit tx
  · exact .receive
  · rw [endFrame_world hend]; exact .deselect

/-- An instruction moves the environment by at most one transport event; accepting a command is none. -/
theorem exec_move {i : Instr} {s t : State} (h : exec i s = .next t) : s.world.Move s.cfg t.world := by
  cases henc : encode i with
  | frame tx rx => rw [exec_of_frame henc] at h; exact frameEvent_move h
  | command c =>
    obtain ⟨op, a, n, p, hexec, -⟩ := exec_of_command henc s
    rw [hexec] at h
    obtain ⟨-, rfl⟩ := accept_next h
    exact .stay

/-- All a step can do when it answers a next state: a block reset, nothing, an illegal command, or an instruction (D1, R150). -/
theorem step_cases {s t : State} (h : step s = .next t) :
    (s.resetPin = true ∧ t = blockReset s) ∨
    (s.resetPin = false ∧ s.blk.phase = .idle ∧ s.host = [] ∧ t = s) ∨
    (s.resetPin = false ∧ s.blk.phase = .idle ∧
      ∃ c rest, s.host = c :: rest ∧ offerOf s.cfg c = .illegal ∧ t = illegalCommand c s) ∨
    (s.resetPin = false ∧ s.blk.phase = .idle ∧
      ∃ c rest i, s.host = c :: rest ∧ offerOf s.cfg c = .instr i ∧ exec i s = .next t) ∨
    (s.resetPin = false ∧ s.blk.phase = .run ∧ ∃ i, s.blk.fetch = .ok i ∧ exec i s = .next t) := by
  cases hpin : s.resetPin with
  | true => rw [step, if_pos hpin] at h; cases h; simp
  | false =>
    cases hphase : s.blk.phase with
    | idle =>
      cases hhost : s.host with
      | nil => simp only [step, hpin, hphase, hhost] at h; cases h; simp
      | cons c rest =>
        cases hoffer : offerOf s.cfg c with
        | instr i =>
          have hexec : exec i s = .next t := by simpa [step, hpin, hphase, hhost, hoffer] using h
          simp [hoffer, hexec]
        | illegal =>
          have hillegal : illegalCommand c s = t := by simpa [step, hpin, hphase, hhost, hoffer] using h
          simp [hoffer, hillegal]
        | unpresentable r => simp [step, hpin, hphase, hhost, hoffer] at h
    | run =>
      cases hfetch : s.blk.fetch with
      | ok i =>
        have hexec : exec i s = .next t := by simpa [step, hpin, hphase, hfetch] using h
        simp [hexec]
      | error f => simp [step, hpin, hphase, hfetch] at h

/-- A block reset moves the environment only if it closes an open window (R291, R292). -/
theorem blockReset_move (s : State) : s.world.Move s.cfg (blockReset s).world := by
  unfold blockReset
  split
  · exact .cutShort
  · exact .stay

/-- A step moves the environment by at most one transport event. -/
theorem step_move {s t : State} (h : step s = .next t) : s.world.Move s.cfg t.world := by
  obtain ⟨-, rfl⟩ | ⟨-, -, -, rfl⟩ | ⟨-, -, c, rest, -, -, rfl⟩ | ⟨-, -, c, rest, i, -, -, hexec⟩ |
    ⟨-, -, i, -, hexec⟩ := step_cases h
  · exact blockReset_move s
  · exact .stay
  · exact .stay
  · exact exec_move hexec
  · exact exec_move hexec

/-! The oracle (R6): the moves that reach an attached device leave an unattached one. -/

theorem select_dev_oracle {w : World} (h : w.attached = false) (cfg : Cfg) : (w.select cfg).dev = w.dev := by
  simp [World.select, h]

theorem frameEnd_dev_oracle {w : World} (h : w.attached = false) (wire : List Byte) :
    (w.frameEnd wire).dev = w.dev := by
  simp [World.frameEnd, h]

@[simp] theorem frameEnd_attached (w : World) (wire : List Byte) : (w.frameEnd wire).attached = w.attached := by
  unfold World.frameEnd; split <;> simp

@[simp] theorem cutShort_attached (w : World) : w.cutShort.attached = w.attached := by
  simp [World.cutShort]

theorem cutShort_dev_oracle {w : World} (h : w.attached = false) : w.cutShort.dev = w.dev := by
  rw [World.cutShort, frameEnd_dev_oracle (by simpa using h), draw_dev]

/-- No move attaches or detaches the environment model. -/
theorem World.Move.attached_eq {cfg : Cfg} {w w' : World} (h : w.Move cfg w') : w'.attached = w.attached := by
  cases h with
  | stay => rfl
  | select => exact select_attached w cfg
  | transmit tx => rfl
  | receive => rfl
  | deselect => exact deselect_attached w
  | cutShort => exact cutShort_attached w

/-- In oracle mode no move touches the device record (log entry 9). -/
theorem World.Move.dev_eq_of_oracle {cfg : Cfg} {w w' : World} (h : w.Move cfg w') (ho : w.attached = false) :
    w'.dev = w.dev := by
  cases h with
  | stay => rfl
  | select => exact select_dev_oracle ho cfg
  | transmit tx => rfl
  | receive => rfl
  | deselect => exact frameEnd_dev_oracle ho w.wire
  | cutShort => exact cutShort_dev_oracle ho

end Sys2Proof.Machine

open Sys2Proof Sys2Proof.Machine

/-- Settles O52: a step moves the environment by at most one transport event, and none reaches an unattached device. -/
theorem oracleModeLeavesTheDevice : Obligations.OracleModeLeavesTheDevice := by
  intro s t horacle hstep
  have hmove := step_move hstep
  exact ⟨hmove.attached_eq.trans horacle, hmove.dev_eq_of_oracle horacle⟩
end

section
/-! The response of an operation, field by field, and which of its fields the host can read (R31, R151, R152). -/

namespace Sys2Proof.Machine

/-- The data fields of an OK response: each is the block's for its own operation, and undefined for any other (R151). -/
theorem okResponse_eq (b : Block) :
    okResponse b =
      { status := .ok
        terr := none
        busyState := if b.op = some .queryBusy then b.bstate else none
        sr1 := if b.op = some .readStatusSnapshot then b.sr1 else none
        sr2 := if b.op = some .readStatusSnapshot then b.sr2 else none
        rdata := if b.op = some .readData then b.rdata else none } := by
  unfold okResponse
  cases b.op with
  | none => rfl
  | some op => cases op <;> rfl

/-- What each field of an operation's response holds: an abort has no data, and only a transport error has `terr` (R31, R152). -/
theorem responseFor_eq (o : OpOutcome) (b : Block) :
    responseFor o b =
      { status := o.status
        terr := o.terr
        busyState := if o = .ok ∧ b.op = some .queryBusy then b.bstate else none
        sr1 := if o = .ok ∧ b.op = some .readStatusSnapshot then b.sr1 else none
        sr2 := if o = .ok ∧ b.op = some .readStatusSnapshot then b.sr2 else none
        rdata := if o = .ok ∧ b.op = some .readData then b.rdata else none } := by
  cases o with
  | ok => simp [responseFor, okResponse_eq, OpOutcome.status, OpOutcome.terr]
  | transportError e => rfl
  | indeterminate => rfl
  | pollLimit l => rfl

theorem OpOutcome.terr_eq_some {o : OpOutcome} {e : TErr} : o.terr = some e ↔ o = .transportError e := by
  cases o <;> simp [OpOutcome.terr]

/-! A host's read of a field succeeds exactly where the field holds a value, and answers that value. -/

theorem Response.readTerr_eq_ok {r : Response} {e : TErr} : r.readTerr = .ok e ↔ r.terr = some e := by
  unfold Response.readTerr; cases r.terr <;> simp

theorem Response.readBusyState_eq_ok {r : Response} {c : BitVec 2} :
    r.readBusyState = .ok c ↔ ∃ x, r.busyState = some x ∧ c = busyCode x := by
  unfold Response.readBusyState; cases r.busyState <;> simp [eq_comm]

theorem Response.readSr1_eq_ok {r : Response} {x : Byte} : r.readSr1 = .ok x ↔ r.sr1 = some x := by
  unfold Response.readSr1; cases r.sr1 <;> simp

theorem Response.readSr2_eq_ok {r : Response} {x : Byte} : r.readSr2 = .ok x ↔ r.sr2 = some x := by
  unfold Response.readSr2; cases r.sr2 <;> simp

theorem Response.readRdata_eq_ok {r : Response} {bs : List Byte} : r.readRdata = .ok bs ↔ r.rdata = some bs := by
  unfold Response.readRdata; cases r.rdata <;> simp

end Sys2Proof.Machine

open Sys2Proof Sys2Proof.Machine

/-- Settles O47: a read succeeds where the field holds a value, and `responseFor_eq` says where that is. -/
theorem responseFieldsValidOnlyWhereNamed : Obligations.ResponseFieldsValidOnlyWhereNamed := by
  intro o b
  rw [responseFor_eq]
  refine ⟨fun e => ?terr, fun c => ?busyState, fun x => ?sr1, fun x => ?sr2, fun x => ?rdata, rfl⟩
  case terr => exact Response.readTerr_eq_ok.trans OpOutcome.terr_eq_some
  case busyState => simp [Response.readBusyState_eq_ok, and_assoc]
  case sr1 => simp [Response.readSr1_eq_ok, and_assoc]
  case sr2 => simp [Response.readSr2_eq_ok, and_assoc]
  case rdata => simp [Response.readRdata_eq_ok, and_assoc]
end

section
/-! What an IDLE block does with an instruction: a host command is accepted (R23), a wire instruction is refused (R36). -/

namespace Sys2Proof.Machine

open Sys2Proof.Claims

/-- An IDLE block accepts any operation with any operands, with the writes of R23. -/
theorem exists_accepted_of_idle {s : State} (h : s.blk.phase = .idle) (op : HostOp) (a : Addr) (n : Nat)
    (p : Option (List Byte)) : ∃ t, accept op a n p s = .next t ∧ Accepted op a n p s t :=
  ⟨_, accept_idle h op a n p, by constructor <;> simp [acceptBlock]⟩

theorem exists_encode_eq_frame {i : Instr} (h : IsWire i) : ∃ tx rx, encode i = .frame tx rx := by
  obtain (rfl | rfl | ⟨a, d, rfl⟩ | ⟨a, rfl⟩ | rfl | rfl | rfl) | (rfl | rfl | ⟨a, n, rfl⟩) := h <;>
    exact ⟨_, _, rfl⟩

/-- While IDLE no frame has a next event (R36). -/
theorem frameEvent_idle {s : State} (h : s.blk.phase = .idle) (tx : List Byte) (rx : Option Nat) :
    frameEvent tx rx s = .refused .noOperation := by
  simp [frameEvent, h]

end Sys2Proof.Machine

open Sys2Proof Sys2Proof.Machine

/-- Settles O16: the meaning of each host command is its acceptance. -/
theorem hostCommandsAreAccepted : Obligations.HostCommandsAreAccepted := by
  intro s a n d hidle
  have haccept := exists_accepted_of_idle hidle
  exact ⟨haccept .setWriteEnable a n none, haccept .setWriteDisable a n none, haccept .queryBusy a n none,
    haccept .readStatusSnapshot a n none, haccept .eraseSector a n none, haccept .eraseChip a n none,
    haccept .programPage a n (some d), haccept .readData a n none, haccept .resetDevice a n none⟩

/-- Settles O24: a wire instruction is the next event of its frame, and an IDLE block has none. -/
theorem noWireInstructionWhileIdle : Obligations.NoWireInstructionWhileIdle := by
  intro i s hwire hidle
  obtain ⟨tx, rx, hencode⟩ := exists_encode_eq_frame hwire
  rw [exec_of_frame hencode, frameEvent_idle hidle]
end

section
/-! The codes of a response (R103, R104), and the decode of a status byte by its bit 0 (R143). -/

namespace Sys2Proof.Machine

/-- The decode of a status byte (R143): bit 0 alone decides it, and Indeterminate never arises (R28). -/
theorem decodeBusy_eq (b : Byte) : decodeBusy b = if b.getLsbD 0 then .busy else .notBusy := by
  unfold decodeBusy
  rw [show b &&& 0x01 = (BitVec.ofBool (b.getLsbD 0)).setWidth 8 from BitVec.and_one_eq_setWidth_ofBool_getLsbD]
  cases b.getLsbD 0 <;> rfl

theorem decodeBusy_ne_indeterminate (b : Byte) : decodeBusy b ≠ .indeterminate := by
  rw [decodeBusy_eq]; split <;> simp

/-- Only Indeterminate has the code 10 (R104). -/
theorem busyCode_eq_two_iff {x : BusyState} : busyCode x = 0b10 ↔ x = .indeterminate := by
  cases x <;> decide

theorem busyCode_ne_three (x : BusyState) : busyCode x ≠ 0b11 := by
  cases x <;> decide

theorem statusCode_toNat_lt (st : Status) : (statusCode st).toNat < 5 := by
  cases st <;> decide

end Sys2Proof.Machine

open Sys2Proof Sys2Proof.Machine

/-- Settles O8: the codes by their tables; no status byte decodes to the only busy_state whose code is 10. -/
theorem responseCodes : Obligations.ResponseCodes := by
  refine ⟨⟨rfl, rfl, rfl, rfl, rfl, statusCode_toNat_lt⟩, rfl, rfl, rfl, busyCode_ne_three, ?_⟩
  exact fun b hcode => decodeBusy_ne_indeterminate b (busyCode_eq_two_iff.mp hcode)
end

section
/-! The frame of a wire instruction: its byte 0, and the length of its transmit part (R91, R95, R96). -/

namespace Sys2Proof

open Sys2Proof.Laws

/-- Every instruction's encoding has the shape of its kind. -/
theorem encodedShape : ∀ i : Instr, EncodedShape.Statement i
  | .wren => EncodedShape.wren
  | .wrdi => EncodedShape.wrdi
  | .rdsr1 => EncodedShape.rdsr1
  | .rdsr2 => EncodedShape.rdsr2
  | .pp a d => EncodedShape.pp a d
  | .read a n => EncodedShape.read a n
  | .se a => EncodedShape.se a
  | .ce => EncodedShape.ce
  | .rsten => EncodedShape.rsten
  | .rst => EncodedShape.rst
  | .setWriteEnable a n => EncodedShape.setWriteEnable a n
  | .setWriteDisable a n => EncodedShape.setWriteDisable a n
  | .queryBusy a n => EncodedShape.queryBusy a n
  | .readStatusSnapshot a n => EncodedShape.readStatusSnapshot a n
  | .eraseSector a n => EncodedShape.eraseSector a n
  | .eraseChip a n => EncodedShape.eraseChip a n
  | .programPage a n d => EncodedShape.programPage a n d
  | .readData a n => EncodedShape.readData a n
  | .resetDevice a n => EncodedShape.resetDevice a n

/-- Byte 0 of a wire instruction's frame is one of the ten opcodes (R95, R97). -/
theorem encode_frame_opcode {i : Instr} {tx : List Byte} {rx : Option Nat} (h : encode i = .frame tx rx) :
    ∃ opc rest, tx = opc :: rest ∧ opc ∈ wireOpcodes := by
  have hshape := encodedShape i
  rw [EncodedShape.Statement, h] at hshape
  exact hshape.2.2

/-- Format W3 transmits the opcode, three address bytes and the payload (R91, R96). -/
theorem txBytes_w3_length (opc : Byte) (a : Addr) (data : List Byte) :
    (txBytes .w3 opc a data).length = 4 + data.length := by
  simp [txBytes, addrBytes]; omega

end Sys2Proof

open Sys2Proof Sys2Proof.Machine

/-- Settles O6: each wire instruction has its own opcode, so the clauses for the other opcodes have a false premise. -/
theorem frameLengthsFollowFromTheOpcode : Obligations.FrameLengthsFollowFromTheOpcode := by
  intro i tx rx h
  cases i <;> simp only [encode, Encoded.frame.injEq, reduceCtorEq] at h <;> obtain ⟨rfl, rfl⟩ := h
  case wren | wrdi | ce | rsten | rst =>
    refine ⟨_, _, rfl, fun _ => ⟨rfl, rfl⟩, ?_, ?_, ?_, ?_⟩ <;> exact (absurd · (by decide))
  case rdsr1 | rdsr2 =>
    refine ⟨_, _, rfl, ?_, fun _ => ⟨rfl, rfl⟩, ?_, ?_, ?_⟩ <;> exact (absurd · (by decide))
  case se a =>
    refine ⟨_, _, rfl, ?_, ?_, fun _ => ⟨rfl, rfl⟩, ?_, ?_⟩ <;> exact (absurd · (by decide))
  case pp a d =>
    refine ⟨_, _, rfl, ?_, ?_, ?_, fun _ => ⟨a, d, rfl, txBytes_w3_length opcPP a d, rfl⟩, ?_⟩ <;>
      exact (absurd · (by decide))
  case read a n =>
    refine ⟨_, _, rfl, ?_, ?_, ?_, ?_, fun _ => ⟨a, n, rfl, rfl, rfl⟩⟩ <;> exact (absurd · (by decide))
end

section
/-! What a step adds to the trace (R2, R30): nothing, or the events of one move. -/

namespace Sys2Proof.Machine

/-- The events one step of a state can add to the trace. -/
inductive Emits (s : State) : List Event → Prop
  /-- No event: IDLE with no command presented (R268), or a block reset outside a frame (R292). -/
  | nothing : Emits s []
  /-- The transfer of an accepted command (R23). -/
  | command (w : CmdWord) (n : Nat) (p : List Byte) : Emits s [.cmd w n p]
  /-- An illegal command and its response (R255). -/
  | illegal (w : CmdWord) (n : Nat) (p : List Byte) : Emits s [.cmd w n p, .resp illegalResponse]
  /-- Select (R33). -/
  | select : Emits s [.sel]
  /-- The Transmit of a wire instruction's frame, while an operation runs (R34, R36). -/
  | transmit {i : Instr} {tx : List Byte} {rx : Option Nat} (hrun : s.blk.phase = .run)
      (hencode : encode i = .frame tx rx) : Emits s [.tx tx s.world.txResult]
  /-- Receive (R35). -/
  | receive (n : Nat) : Emits s [.rx n (s.world.rxResult s.cfg n)]
  /-- A Deselect after which the operation goes on, or that of a block reset (R134, R291). -/
  | deselect : Emits s [.desel]
  /-- The Deselect and the response that end an operation (R150, R259). -/
  | finish (r : Response) : Emits s [.desel, .resp r]

/-- Advance adds at most the response of the operation it ends (R150). -/
theorem advance_trace_cases (c : Current) (s : State) :
    (advance c s).trace = s.trace ∨ ∃ r, (advance c s).trace = s.trace ++ [.resp r] := by
  by_cases h : c.upc + 1 = c.size
  · rw [advance_last h, finish_trace]; exact .inr ⟨_, rfl⟩
  · rw [advance_more h]; exact .inl rfl

/-- The poll's decision adds at most the response of the operation it ends (R144, R145). -/
theorem pollDecision_trace_cases (c : Current) (b : BusyState) (s : State) :
    (pollDecision c b s).trace = s.trace ∨ ∃ r, (pollDecision c b s).trace = s.trace ++ [.resp r] := by
  cases b with
  | notBusy => exact advance_trace_cases c _
  | indeterminate => exact .inr ⟨_, rfl⟩
  | busy =>
    simp only [pollDecision]
    split
    · exact .inr ⟨_, rfl⟩
    · exact .inl rfl

/-- The end of a frame adds its Deselect, and the response where the operation ends (R134, R150). -/
theorem endFrame_trace_cases {s t : State} (h : endFrame s = .next t) :
    t.trace = s.trace ++ [.desel] ∨ ∃ r, t.trace = s.trace ++ [.desel, .resp r] := by
  cases hc : s.blk.current with
  | error f => obtain ⟨o, -, rfl⟩ := pend_of_endFrame hc h; simp
  | ok c =>
    obtain ⟨o, -, rfl⟩ | ⟨-, -, x, -, rfl⟩ | ⟨-, tx, rx, dst, b, -, -, rfl⟩ := endFrame_cases hc h
    · simp
    · simpa using pollDecision_trace_cases c (decodeBusy x) (deselect s)
    · simpa using advance_trace_cases c { deselect s with blk := b }

/-- An event of a wire instruction's frame. -/
theorem frameEvent_emits {i : Instr} {tx : List Byte} {rx : Option Nat} {s t : State}
    (hencode : encode i = .frame tx rx) (h : frameEvent tx rx s = .next t) :
    ∃ new, t.trace = s.trace ++ new ∧ Emits s new := by
  obtain ⟨hrun, ⟨-, rfl⟩ | ⟨-, rfl⟩ | ⟨n, -, -, rfl⟩ | ⟨-, hend⟩⟩ := frameEvent_cases h
  · exact ⟨_, select_trace s, .select⟩
  · exact ⟨_, transmit_trace tx rx s, .transmit hrun hencode⟩
  · exact ⟨_, receive_trace n s, .receive n⟩
  · obtain htrace | ⟨r, htrace⟩ := endFrame_trace_cases hend
    · exact ⟨_, htrace, .deselect⟩
    · exact ⟨_, htrace, .finish r⟩

/-- An instruction adds the next event of its frame, or the transfer of its command. -/
theorem exec_emits {i : Instr} {s t : State} (h : exec i s = .next t) :
    ∃ new, t.trace = s.trace ++ new ∧ Emits s new := by
  cases hencode : encode i with
  | frame tx rx => rw [exec_of_frame hencode] at h; exact frameEvent_emits hencode h
  | command c =>
    obtain ⟨op, a, n, p, hexec, -⟩ := exec_of_command hencode s
    rw [hexec] at h
    obtain ⟨-, rfl⟩ := accept_next h
    exact ⟨_, rfl, .command _ _ _⟩

/-- A block reset adds a Deselect if it closes an open window (R291, R292). -/
theorem blockReset_emits (s : State) : ∃ new, (blockReset s).trace = s.trace ++ new ∧ Emits s new := by
  unfold blockReset
  split
  · exact ⟨_, rfl, .deselect⟩
  · exact ⟨_, (List.append_nil _).symm, .nothing⟩

/-- A step only adds to the trace, and adds the events of one move. -/
theorem step_emits {s t : State} (h : step s = .next t) : ∃ new, t.trace = s.trace ++ new ∧ Emits s new := by
  obtain ⟨-, rfl⟩ | ⟨-, -, -, rfl⟩ | ⟨-, -, c, rest, -, -, rfl⟩ | ⟨-, -, c, rest, i, -, -, hexec⟩ |
    ⟨-, -, i, -, hexec⟩ := step_cases h
  · exact blockReset_emits s
  · exact ⟨_, (List.append_nil _).symm, .nothing⟩
  · exact ⟨_, illegalCommand_trace c s, .illegal _ _ _⟩
  · exact exec_emits hexec
  · exact exec_emits hexec

/-- A Transmit that a step adds is that of a wire instruction's frame, sent while an operation runs (R36, R90). -/
theorem Emits.tx_mem {s : State} {new : List Event} {bytes : List Byte} {r : TxResult} (h : Emits s new)
    (hmem : Event.tx bytes r ∈ new) : s.blk.phase = .run ∧ ∃ i rx, encode i = .frame bytes rx := by
  cases h with
  | transmit hrun hencode =>
    obtain ⟨rfl, -⟩ : bytes = _ ∧ r = _ := by simpa using hmem
    exact ⟨hrun, _, _, hencode⟩
  | nothing | command | illegal | select | receive | deselect | finish => simp at hmem

end Sys2Proof.Machine

open Sys2Proof Sys2Proof.Machine

/-- Settles O42: every Transmit a step adds is that of a wire instruction's frame, whose byte 0 is an opcode. -/
theorem onlyTheTenOpcodesAreSent : Obligations.OnlyTheTenOpcodesAreSent := by
  intro s t hstep
  obtain ⟨new, htrace, hemits⟩ := step_emits hstep
  refine ⟨new, htrace, fun bytes r hmem => ?_⟩
  obtain ⟨hrun, i, rx, hencode⟩ := hemits.tx_mem hmem
  exact ⟨hrun, encode_frame_opcode hencode⟩
end

section
/-! The address encoder (R130, R131): each address byte is a byte of the address, and the three give it back. -/

namespace Sys2Proof

/-- Shifting a byte of an address to the bottom and masking it is taking its eight bits (R130). -/
theorem shift_and_mask_eq_extract (a : Addr) (k : Nat) :
    ((a >>> k) &&& 0xFF#24).setWidth 8 = a.extractLsb' k 8 := by
  rw [BitVec.setWidth_and, show (0xFF#24).setWidth 8 = BitVec.allOnes 8 from rfl, BitVec.and_allOnes]
  apply BitVec.eq_of_toNat_eq
  simp

/-- The three address bytes, in wire order, spell the address they encode (R131). -/
theorem addrOfBytes_extract (a : Addr) :
    addrOfBytes (a.extractLsb' 16 8) (a.extractLsb' 8 8) (a.extractLsb' 0 8) = a := by
  apply BitVec.eq_of_getLsbD_eq
  intro i hi
  simp only [addrOfBytes, BitVec.getLsbD_or, BitVec.getLsbD_shiftLeft, BitVec.getLsbD_setWidth,
    BitVec.getLsbD_extractLsb']
  obtain h | ⟨hlo, hhi⟩ | h : i < 8 ∨ (8 ≤ i ∧ i < 16) ∨ 16 ≤ i := by omega
  · simp [h, hi, show i < 16 by omega]
  · simp [hi, hhi, show ¬ i < 8 by omega, show i - 8 < 8 by omega, show i - 8 < 24 by omega,
      show 8 + (i - 8) = i by omega]
  · simp [hi, show ¬ i < 16 by omega, show ¬ i < 8 by omega, show ¬ i - 8 < 8 by omega,
      show i - 16 < 8 by omega, show i - 16 < 24 by omega, show 16 + (i - 16) = i by omega]

end Sys2Proof

open Sys2Proof Sys2Proof.Machine

/-- Settles O5: the first form is the encoder's definition, the others hold bit by bit. -/
theorem addressBytesAreBigEndianAndRoundTrip : Obligations.AddressBytesAreBigEndianAndRoundTrip := by
  intro a
  refine ⟨rfl, ?_, addrOfBytes_extract a⟩
  have hlow := shift_and_mask_eq_extract a 0
  rw [BitVec.ushiftRight_zero] at hlow
  rw [shift_and_mask_eq_extract, shift_and_mask_eq_extract, hlow, addrBytes]

/-- Settles O7: the decode is a choice on bit 0 between the other two values. -/
theorem busyDecodeReadsBitZero : Obligations.BusyDecodeReadsBitZero := by
  intro b
  refine ⟨?_, ?_, decodeBusy_ne_indeterminate b⟩ <;>
    (rw [decodeBusy_eq]; cases b.getLsbD 0 <;> simp)
end

section
/-! The frame of every wire instruction decodes to it (R92, R93, R96). -/

namespace Sys2Proof

theorem takeAddr_addrBytes (a : Addr) (rest : List Byte) : takeAddr (addrBytes a ++ rest) = .ok (a, rest) := by
  simp [addrBytes, takeAddr, addrOfBytes_extract]

theorem decodeFrame_of_encode {i : Instr} {tx : List Byte} {rx : Option Nat} (h : encode i = .frame tx rx) :
    decodeFrame tx rx = .ok i := by
  cases i <;> simp only [encode, Encoded.frame.injEq, reduceCtorEq] at h <;> obtain ⟨rfl, rfl⟩ := h
  case wren | wrdi | rdsr1 | rdsr2 | ce | rsten | rst => rfl
  case pp a d =>
    have hwire : decodeWire 0 (txBytes .w3 opcPP a d) = .ok (.pp a d, []) := by
      simp [decodeWire, txBytes, takeAddr_addrBytes, opcWREN, opcWRDI, opcRDSR1, opcRDSR2, opcPP]
    simp [decodeFrame, hwire, Instr.rxPart]
  case read a n =>
    have hwire : decodeWire n (txBytes .w4 opcREAD a []) = .ok (.read a n, []) := by
      have haddr := takeAddr_addrBytes a []
      rw [List.append_nil] at haddr
      simp [decodeWire, txBytes, haddr, opcWREN, opcWRDI, opcRDSR1, opcRDSR2, opcPP, opcREAD]
    simp [decodeFrame, hwire, Instr.rxPart]
  case se a =>
    have hwire : decodeWire 0 (txBytes .w2 opcSE a []) = .ok (.se a, []) := by
      have haddr := takeAddr_addrBytes a []
      rw [List.append_nil] at haddr
      simp [decodeWire, txBytes, haddr, opcWREN, opcWRDI, opcRDSR1, opcRDSR2, opcPP, opcREAD, opcSE]
    simp [decodeFrame, hwire, Instr.rxPart]

end Sys2Proof
end

section
/-! The step machine along the pseudocode (R150, R153): a scene of the pseudocode is a state of the machine, and one
frame of the pseudocode is the same events of the machine, up to its Deselect. -/

namespace Sys2Proof.Machine

open Sys2Proof.Claims

/-- The machine state whose block is `b` and whose environment and trace are those of a scene of the pseudocode. -/
def State.on (s : State) (b : Block) (p : Scene) : State := { s with blk := b, world := p.world, trace := p.trace }

@[simp] theorem on_blk (s : State) (b : Block) (p : Scene) : (s.on b p).blk = b := rfl
@[simp] theorem on_world (s : State) (b : Block) (p : Scene) : (s.on b p).world = p.world := rfl
@[simp] theorem on_trace (s : State) (b : Block) (p : Scene) : (s.on b p).trace = p.trace := rfl
@[simp] theorem on_resetPin (s : State) (b : Block) (p : Scene) : (s.on b p).resetPin = s.resetPin := rfl
@[simp] theorem on_cfg (s : State) (b : Block) (p : Scene) : (s.on b p).cfg = s.cfg := rfl

theorem samePorts_on (s : State) (b : Block) (p : Scene) : SamePorts s (s.on b p) := ⟨rfl, rfl, rfl⟩

/-! The machine's transport events are the pseudocode's. -/

theorem select_on (s : State) (b : Block) (p : Scene) :
    select (s.on b p) = s.on { b with cs := true, fstep := some .tx } (Pseudo.select s.cfg p) := rfl

theorem deselect_on (s : State) (b : Block) (p : Scene) :
    deselect (s.on b p) = s.on { b with cs := false } (Pseudo.deselect p) := rfl

theorem transmit_on_ok {p : Scene} (h : p.world.txResult = .ok) (s : State) (b : Block) (tx : List Byte)
    (rx : Option Nat) :
    transmit tx rx (s.on b p) =
      s.on { b with fstep := some (if rx.isSome then .rx else .desel) } (Pseudo.transmit tx p) := by
  simp [transmit, State.on, Pseudo.transmit, h]

theorem transmit_on_err {p : Scene} {e : TErr} (h : p.world.txResult = .err e) (s : State) (b : Block)
    (tx : List Byte) (rx : Option Nat) :
    transmit tx rx (s.on b p) =
      s.on { b with pend := some (.transportError e), fstep := some .desel } (Pseudo.transmit tx p) := by
  simp [transmit, State.on, Pseudo.transmit, h]

theorem receive_on_ok {s : State} {p : Scene} {n : Nat} {bytes : List Byte}
    (h : p.world.rxResult s.cfg n = .ok bytes) (b : Block) :
    receive n (s.on b p) =
      s.on { b with rxbuf := some bytes, fstep := some .desel } (Pseudo.receive s.cfg n p) := by
  simp [receive, State.on, Pseudo.receive, h]

theorem receive_on_err {s : State} {p : Scene} {n : Nat} {e : TErr}
    (h : p.world.rxResult s.cfg n = .err e) (b : Block) :
    receive n (s.on b p) =
      s.on { b with pend := some (.transportError e), fstep := some .desel } (Pseudo.receive s.cfg n p) := by
  simp [receive, State.on, Pseudo.receive, h]

/-- A run of the machine from the state `t`, in the scene `p` of the pseudocode, to the state `t'`, in the scene `q`: one step for each event the pseudocode adds (D1). -/
def Reaches (t : State) (p : Scene) (t' : State) (q : Scene) : Prop :=
  ∃ k, runSteps k t = .next t' ∧ k + p.trace.length = q.trace.length

theorem Reaches.refl (t : State) (p : Scene) : Reaches t p t p := ⟨0, rfl, Nat.zero_add _⟩

theorem Reaches.trans {t t' t'' : State} {p q r : Scene} (h : Reaches t p t' q) (h' : Reaches t' q t'' r) :
    Reaches t p t'' r := by
  obtain ⟨j, hj, hlen⟩ := h
  obtain ⟨k, hk, hlen'⟩ := h'
  exact ⟨j + k, by rw [runSteps_add hj, hk], by omega⟩

/-- One step that adds one event to the pseudocode's trace. -/
theorem Reaches.head {t t' t'' : State} {p q r : Scene} (hstep : step t = .next t')
    (hlen : q.trace.length = p.trace.length + 1) (h : Reaches t' q t'' r) : Reaches t p t'' r :=
  Reaches.trans ⟨1, runSteps_succ hstep, by omega⟩ h

theorem Reaches.single {t t' : State} {p q : Scene} (hstep : step t = .next t')
    (hlen : q.trace.length = p.trace.length + 1) : Reaches t p t' q := .head hstep hlen (.refl t' q)

/-- While an operation runs, a step is the next event of the frame of its current micro-operation (R150). -/
theorem step_eq_frameEvent {s : State} {c : Current} {i : Instr} (hpin : s.resetPin = false)
    (hrun : s.blk.phase = .run) (hc : s.blk.current = .ok c) (hi : encode i = .frame c.mop.tx c.mop.rx) :
    step s = frameEvent c.mop.tx c.mop.rx s := by
  have hfetch : s.blk.fetch = .ok i := by simp [Block.fetch, hc, decodeFrame_of_encode hi]
  simp [step, hpin, hrun, hfetch, exec_of_frame hi]

/-- The block at the Deselect of a successful frame, with what its receive buffer holds (R150). -/
def Block.received (buf : Option (List Byte)) (b : Block) : Block :=
  { b with cs := true, fstep := some .desel, rxbuf := buf }

/-- The block at the Deselect of a failed frame, with the transport's error pending (R135, R150). -/
def Block.failed (e : TErr) (b : Block) : Block :=
  { b with cs := true, fstep := some .desel, pend := some (.transportError e) }

/-- A frame of the pseudocode and the machine's run through the same frame up to its Deselect: both fail with the same error, or both have received the same bytes (R134, R135, R150). -/
theorem frame_reaches_deselect {s : State} {b : Block} {c : Current} {i : Instr} (hpin : s.resetPin = false)
    (hrun : b.phase = .run) (hc : b.current = .ok c) (hi : encode i = .frame c.mop.tx c.mop.rx)
    (hsel : b.fstep = some .sel) (p : Scene) :
    (∃ e q, Pseudo.frame s.cfg c.mop.tx c.mop.rx p = .raised (.transportError e) (Pseudo.deselect q) ∧
      Reaches (s.on b p) p (s.on (b.failed e) q) q) ∨
    (∃ bytes buf q, Pseudo.frame s.cfg c.mop.tx c.mop.rx p = .done bytes (Pseudo.deselect q) ∧
      (∀ n, c.mop.rx = some n → buf = some bytes ∧ bytes.length = n) ∧
      Reaches (s.on b p) p (s.on (b.received buf) q) q) := by
  have hstep : ∀ (b' : Block) (q : Scene), b'.phase = .run → b'.current = .ok c →
      step (s.on b' q) = frameEvent c.mop.tx c.mop.rx (s.on b' q) :=
    fun b' q hrun' hc' => step_eq_frameEvent hpin hrun' hc' hi
  have hselect : Reaches (s.on b p) p _ (Pseudo.select s.cfg p) :=
    .single ((hstep b p hrun hc).trans (frameEvent_sel hrun hsel)) (by simp [Pseudo.select])
  rw [select_on] at hselect
  have htransmit := (hstep { b with cs := true, fstep := some .tx } (Pseudo.select s.cfg p) hrun hc).trans
    (frameEvent_tx hrun rfl)
  have hlen : (Pseudo.transmit c.mop.tx (Pseudo.select s.cfg p)).trace.length =
      (Pseudo.select s.cfg p).trace.length + 1 := by simp [Pseudo.transmit]
  have hreceive := hstep { b with cs := true, fstep := some .rx } (Pseudo.transmit c.mop.tx (Pseudo.select s.cfg p))
    hrun hc
  cases htx : (Pseudo.select s.cfg p).world.txResult with
  | err e =>
    rw [transmit_on_err htx] at htransmit
    exact .inl ⟨e, _, by simp [Pseudo.frame, htx], hselect.trans (.single htransmit hlen)⟩
  | ok =>
    rw [transmit_on_ok htx] at htransmit
    cases hrx : c.mop.rx with
    | none =>
      rw [hrx] at htransmit
      exact .inr ⟨[], b.rxbuf, _, by simp [Pseudo.frame, htx], by simp, hselect.trans (.single htransmit hlen)⟩
    | some n =>
      rw [hrx] at htransmit
      rw [hrx, frameEvent_rx hrun rfl] at hreceive
      have hlen' : ∀ q, (Pseudo.receive s.cfg n q).trace.length = q.trace.length + 1 := by simp [Pseudo.receive]
      cases hres : (Pseudo.transmit c.mop.tx (Pseudo.select s.cfg p)).world.rxResult s.cfg n with
      | err e =>
        rw [receive_on_err hres] at hreceive
        exact .inl ⟨e, _, by simp [Pseudo.frame, htx, hres],
          hselect.trans (.head htransmit hlen (.single hreceive (hlen' _)))⟩
      | ok bytes =>
        rw [receive_on_ok hres] at hreceive
        exact .inr ⟨bytes, some bytes, _, by simp [Pseudo.frame, htx, hres], by simpa using rxResult_length hres,
          hselect.trans (.head htransmit hlen (.single hreceive (hlen' _)))⟩

end Sys2Proof.Machine
end
section
/-! What it is for the step machine to do as a run of the pseudocode does, and that it does so from frame to frame
(R134, R144, R150). -/

namespace Sys2Proof.Machine

open Sys2Proof.Claims

/-- The scene in which a run of the pseudocode leaves off. -/
def Run.scene {α : Type} : Run α → Scene
  | .done _ p => p
  | .raised _ p => p
  | .polling p => p

theorem Run.andThen_assoc {α β γ : Type} (r : Run α) (f : α → Scene → Run β) (g : β → Scene → Run γ) :
    (r.andThen f).andThen g = r.andThen fun x p => (f x p).andThen g := by
  cases r <;> rfl

/-- The operation has ended in the scene `p`: the block is IDLE and has delivered the response `r`. -/
structure Ended (s : State) (r : Response) (p : Scene) (t : State) : Prop where
  phase : t.blk.phase = .idle
  cs : t.blk.cs = false
  trace : t.trace = p.trace ++ [.resp r]
  world : t.world = p.world
  ports : SamePorts s t

/-- The machine shows what a run of the pseudocode has come to: its response, or a wait that goes on. -/
def Shows (s t : State) : Run Response → Prop
  | .done r p => Ended s r p t
  | .raised o p => Ended s (Pseudo.abortResponse o) p t
  | .polling p => t.blk.phase = .run ∧ t.trace = p.trace ∧ t.world = p.world ∧ SamePorts s t

theorem Shows.of_result {s t : State} {run : Run Response} {r : Response} {p : Scene} (h : Shows s t run)
    (hr : Pseudo.result run = some (r, p)) : run.scene = p ∧ Ended s r p t := by
  cases run <;> cases hr <;> exact ⟨rfl, h⟩

/-- From the state `t`, in the scene `p`, the machine comes to show what the run `r` comes to. -/
def Simulates (s t : State) (p : Scene) (r : Run Response) : Prop :=
  ∃ t', Reaches t p t' r.scene ∧ Shows s t' r

theorem Simulates.head {s t t' : State} {p q : Scene} {r : Run Response} (hstep : step t = .next t')
    (hlen : q.trace.length = p.trace.length + 1) (h : Simulates s t' q r) : Simulates s t p r := by
  obtain ⟨u, hreach, hshows⟩ := h
  exact ⟨u, hreach.head hstep hlen, hshows⟩

theorem Simulates.of_reaches {s t t' : State} {p q : Scene} {r : Run Response} (hreach : Reaches t p t' q)
    (h : Simulates s t' q r) : Simulates s t p r := by
  obtain ⟨u, hreach', hshows⟩ := h
  exact ⟨u, hreach.trans hreach', hshows⟩

theorem ended_finish {s : State} {b : Block} (hcs : b.cs = false) (o : OpOutcome) (p : Scene) :
    Ended s (responseFor o b) p (finish o (s.on b p)) :=
  ⟨rfl, hcs, rfl, rfl, rfl, rfl, rfl⟩

theorem simulates_finish_ok {s : State} {b : Block} (hcs : b.cs = false) (p : Scene) :
    Simulates s (finish .ok (s.on b p)) p (.done (okResponse b) p) :=
  ⟨_, .refl _ _, ended_finish hcs .ok p⟩

/-- An abort delivers the response the pseudocode gives for its cause (R152, R259). -/
theorem responseFor_abort {o : OpOutcome} (h : o ≠ .ok) (b : Block) : responseFor o b = Pseudo.abortResponse o := by
  cases o with
  | ok => exact absurd rfl h
  | transportError e => rfl
  | indeterminate => rfl
  | pollLimit l => rfl

theorem simulates_finish_abort {s : State} {b : Block} {o : OpOutcome} (ho : o ≠ .ok) (hcs : b.cs = false)
    (p : Scene) : Simulates s (finish o (s.on b p)) p (.raised o p) := by
  refine ⟨_, .refl _ _, ?_⟩
  rw [Shows, ← responseFor_abort ho b]
  exact ended_finish hcs o p

theorem simulates_polling {s : State} {b : Block} (hrun : b.phase = .run) (p : Scene) :
    Simulates s (s.on b p) p (.polling p) :=
  ⟨_, .refl _ _, hrun, rfl, rfl, samePorts_on s b p⟩

/-- The block between two frames of the operation whose operands and results `b0` holds. -/
structure Block.InOperation (b0 b : Block) : Prop where
  run : b.phase = .run
  cs : b.cs = false
  pend : b.pend = none
  operands : SameOperands b0 b
  results : SameResults b0 b

/-- The block is about to open a frame of the micro-operation `u`, after `polls` polls there. -/
structure Block.Begins (b0 : Block) (u polls : Nat) (b : Block) : Prop extends Block.InOperation b0 b where
  upc : b.upc = some u
  fstep : b.fstep = some .sel
  polls : b.polls = polls

theorem Block.Begins.current_eq {b0 b : Block} {u polls : Nat} (h : b0.Begins u polls b) {prog : List MicroOp}
    {m : MicroOp} (hprog : b0.prog = .ok prog) (hm : prog[u]? = some m) :
    b.current = .ok ⟨m, u, prog.length⟩ := by
  obtain ⟨hop, haddr, hlen, hpayload⟩ := h.operands
  simp [Block.current, prog_congr hop haddr hlen hpayload, hprog, Block.readUpc, h.upc, hm]

/-- One frame. Where it fails, the operation ends with the transport's error (R251); where it succeeds, what is left to show is the rest of the pseudocode, from the machine's Deselect on. -/
theorem simulates_frame {s : State} {b0 b : Block} {c : Current} {i : Instr} {polls : Nat} {p : Scene}
    {f : List Byte → Scene → Run Response} (hpin : s.resetPin = false) (hb : b0.Begins c.upc polls b)
    (hc : b.current = .ok c) (hi : encode i = .frame c.mop.tx c.mop.rx)
    (hdone : ∀ bytes buf q, (∀ n, c.mop.rx = some n → buf = some bytes ∧ bytes.length = n) →
      ∃ t, endFrame (s.on (b.received buf) q) = .next t ∧
        Simulates s t (Pseudo.deselect q) (f bytes (Pseudo.deselect q))) :
    Simulates s (s.on b p) p ((Pseudo.frame s.cfg c.mop.tx c.mop.rx p).andThen f) := by
  have hstep : ∀ (b' : Block) (q : Scene), b'.phase = .run → b'.current = .ok c → b'.fstep = some .desel →
      step (s.on b' q) = endFrame (s.on b' q) := fun b' q hrun hc' hdesel =>
    (step_eq_frameEvent (s := s.on b' q) hpin hrun hc' hi).trans (frameEvent_desel hrun hdesel)
  have hlen : ∀ q, (Pseudo.deselect q).trace.length = q.trace.length + 1 := by simp [Pseudo.deselect]
  obtain ⟨e, q, hframe, hreach⟩ | ⟨bytes, buf, q, hframe, hbuf, hreach⟩ :=
    frame_reaches_deselect hpin hb.run hc hi hb.fstep p <;> rw [hframe, Run.andThen] <;> refine .of_reaches hreach ?_
  · have hend : endFrame (s.on (b.failed e) q) =
        .next (finish (.transportError e) (s.on { b.failed e with cs := false } (Pseudo.deselect q))) := rfl
    exact .head ((hstep (b.failed e) q hb.run hc rfl).trans hend) (hlen q)
      (simulates_finish_abort (by simp) rfl _)
  · obtain ⟨t, hend, hrest⟩ := hdone bytes buf q hbuf
    exact .head ((hstep (b.received buf) q hb.run hc rfl).trans hend) (hlen q) hrest

/-- The end of a poll that received a byte: its decision (R144). -/
theorem endFrame_poll {s : State} {c : Current} {bytes : List Byte} (hpend : s.blk.pend = none)
    (hc : s.blk.current = .ok c) (hm : c.mop = .waitIdle) (hbuf : s.blk.rxbuf = some bytes)
    (hone : bytes.length = 1) :
    endFrame s = .next (pollDecision c (decodeBusy (Pseudo.rx0 bytes)) (deselect s)) := by
  obtain ⟨x, rfl⟩ := List.length_eq_one_iff.mp hone
  simp [endFrame, hpend, hc, hm, Block.readRx0, hbuf, Pseudo.rx0]

/-- The block after the Deselect of a successful poll, with the poll counted (R144). -/
def Block.polled (buf : Option (List Byte)) (b : Block) : Block :=
  { b.received buf with cs := false, polls := b.polls + 1 }

theorem Block.Begins.polled {b0 b : Block} {u polls : Nat} (h : b0.Begins u polls b) (buf : Option (List Byte)) :
    b0.InOperation (b.polled buf) :=
  ⟨h.run, rfl, h.pend, h.operands, h.results⟩

theorem Block.Begins.pollAgain {b0 b : Block} {u : Nat} (h : b0.Begins u b.polls b) (buf : Option (List Byte)) :
    b0.Begins u (b.polls + 1) { b.polled buf with fstep := some .sel } :=
  ⟨⟨h.run, rfl, h.pend, h.operands, h.results⟩, h.upc, rfl, rfl⟩

/-- The decision of a successful poll, at its Deselect (R144, R145). -/
theorem pollDecision_received (c : Current) (x : BusyState) (s : State) (b : Block) (buf : Option (List Byte))
    (q : Scene) :
    pollDecision c x (deselect (s.on (b.received buf) q)) =
      match x with
      | .notBusy => advance c (s.on (b.polled buf) (Pseudo.deselect q))
      | .indeterminate => finish .indeterminate (s.on (b.polled buf) (Pseudo.deselect q))
      | .busy =>
        match limitReached s.cfg (b.polls + 1) with
        | some l => finish (.pollLimit l) (s.on (b.polled buf) (Pseudo.deselect q))
        | none => s.on { b.polled buf with fstep := some .sel } (Pseudo.deselect q) := rfl

/-- WAIT_IDLE: the machine polls as often as the pseudocode, aborts where it raises, and advances where it returns (R144, R145, R150). -/
theorem simulates_waitIdle {s : State} {b0 : Block} {prog : List MicroOp} {u : Nat} {f : Unit → Scene → Run Response}
    (hpin : s.resetPin = false) (hprog : b0.prog = .ok prog) (hm : prog[u]? = some .waitIdle)
    (hdone : ∀ b p, b0.InOperation b →
      Simulates s (advance ⟨.waitIdle, u, prog.length⟩ (s.on b p)) p (f () p)) :
    ∀ (fuel polls : Nat) (b : Block) (p : Scene), b0.Begins u polls b →
      Simulates s (s.on b p) p ((Pseudo.waitIdle s.cfg fuel polls p).andThen f) := by
  intro fuel
  induction fuel with
  | zero => exact fun polls b p hb => simulates_polling hb.run p
  | succ fuel ih =>
    intro polls b p hb
    obtain rfl := hb.polls
    have hc := hb.current_eq hprog hm
    rw [Pseudo.waitIdle, Run.andThen_assoc, Pseudo.poll, Run.andThen_assoc]
    refine simulates_frame (c := ⟨.waitIdle, u, prog.length⟩) (i := .rdsr1) hpin hb hc rfl fun bytes buf q hbuf => ?_
    obtain ⟨hbytes, hone⟩ := hbuf 1 rfl
    refine ⟨_, endFrame_poll hb.pend hc rfl hbytes hone, ?_⟩
    rw [pollDecision_received, Run.andThen]
    cases decodeBusy (Pseudo.rx0 bytes) with
    | notBusy => exact hdone _ _ (hb.polled buf)
    | indeterminate => exact simulates_finish_abort (by simp) rfl _
    | busy =>
      cases limitReached s.cfg (b.polls + 1) with
      | some l => exact simulates_finish_abort (by simp) rfl _
      | none => exact ih _ _ _ (hb.pollAgain buf)

end Sys2Proof.Machine
end
section
/-! A micro-program read as pseudocode (R140), and the step machine's run of it. -/

namespace Sys2Proof.Machine

open Sys2Proof.Claims

/-- What Store(dst) makes of received bytes (R137). -/
def Block.record (dst : Dst) (bytes : List Byte) (b : Block) : Block :=
  match dst with
  | .none => b
  | .bq => { b with bstate := some (decodeBusy (Pseudo.rx0 bytes)) }
  | .sr1 => { b with sr1 := some (Pseudo.rx0 bytes) }
  | .sr2 => { b with sr2 := some (Pseudo.rx0 bytes) }
  | .rd => { b with rdata := some bytes }

/-- The receive part a destination needs: one byte for a status, any number for data (R137, R140). -/
def Dst.Fits (rx : Option Nat) : Dst → Prop
  | .none => True
  | .bq | .sr1 | .sr2 => rx = some 1
  | .rd => ∃ n, rx = some n

/-- A micro-operation is a poll, or the frame of a wire instruction with a receive part its destination can take. -/
def MicroOp.Sound : MicroOp → Prop
  | .waitIdle => True
  | .frame tx rx dst => (∃ i, encode i = .frame tx rx) ∧ dst.Fits rx

theorem store_eq_record {dst : Dst} {rx : Option Nat} {b : Block} {bytes : List Byte} (hfits : dst.Fits rx)
    (hbuf : ∀ n, rx = some n → b.rxbuf = some bytes ∧ bytes.length = n) :
    store dst b = .ok (b.record dst bytes) := by
  cases dst with
  | none => rfl
  | bq | sr1 | sr2 =>
    obtain ⟨hbytes, hone⟩ := hbuf 1 hfits
    obtain ⟨x, rfl⟩ := List.length_eq_one_iff.mp hone
    simp [store, Block.readRx0, hbytes, Block.record, Pseudo.rx0]
  | rd =>
    obtain ⟨n, hn⟩ := hfits
    obtain ⟨hbytes, -⟩ := hbuf n hn
    simp [store, Block.readRx, hbytes, Block.record]

/-- Recording keeps the micro-program: it writes results only. -/
theorem prog_record (dst : Dst) (bytes : List Byte) (b : Block) : (b.record dst bytes).prog = b.prog := by
  cases dst <;> exact prog_congr rfl rfl rfl rfl

/-- The machine records in its own block what the pseudocode records in `b0`. -/
theorem Block.Begins.stored {b0 b : Block} {u polls : Nat} (h : b0.Begins u polls b) (dst : Dst)
    (bytes : List Byte) (buf : Option (List Byte)) :
    (b0.record dst bytes).InOperation ({ b.received buf with cs := false }.record dst bytes) := by
  obtain ⟨hbstate, hsr1, hsr2, hrdata⟩ := h.results
  cases dst <;> exact ⟨h.run, rfl, h.pend, h.operands, by simp [SameResults, Block.record, Block.received, *]⟩

/-- The OK response is made of the operation and the results alone (R151). -/
theorem Block.InOperation.okResponse_eq {b0 b : Block} (h : b0.InOperation b) : okResponse b = okResponse b0 := by
  obtain ⟨hop, -⟩ := h.operands
  obtain ⟨hbstate, hsr1, hsr2, hrdata⟩ := h.results
  simp only [okResponse, hop, hbstate, hsr1, hsr2, hrdata]

/-- A micro-program as pseudocode: its waits and frames in order, each result recorded in the block, then the OK response (R140, R150). -/
def Pseudo.program (cfg : Cfg) (fuel : Nat) : List MicroOp → Block → Scene → Run Response
  | [], b, p => .done (okResponse b) p
  | .waitIdle :: ms, b, p => (Pseudo.waitIdle cfg fuel 0 p).andThen fun _ p => Pseudo.program cfg fuel ms b p
  | .frame tx rx dst :: ms, b, p =>
    (Pseudo.frame cfg tx rx p).andThen fun bytes p => Pseudo.program cfg fuel ms (b.record dst bytes) p

/-- Advance ends the operation after its last micro-operation, and else begins the next (R150). -/
theorem simulates_advance {s : State} {b0 b : Block} {c : Current} {r : Run Response} {p : Scene} (hb : b0.InOperation b)
    (hlast : c.upc + 1 = c.size → r = .done (okResponse b0) p)
    (hmore : c.upc + 1 ≠ c.size → ∀ b', b0.Begins (c.upc + 1) 0 b' → Simulates s (s.on b' p) p r) :
    Simulates s (advance c (s.on b p)) p r := by
  have hok := hb.okResponse_eq
  by_cases h : c.upc + 1 = c.size
  · rw [advance_last h, hlast h, ← hok]
    exact simulates_finish_ok (b := { b with upc := some (c.upc + 1), polls := 0, fstep := some .sel }) hb.cs p
  · rw [advance_more h]
    exact hmore h { b with upc := some (c.upc + 1), polls := 0, fstep := some .sel }
      ⟨⟨hb.run, hb.cs, hb.pend, hb.operands, hb.results⟩, rfl, rfl, rfl⟩

/-- One micro-operation: a wait or a frame, and then Advance. -/
theorem simulates_microOp {s : State} {prog ms : List MicroOp} {m : MicroOp} {u fuel : Nat} {b0 b : Block} {p : Scene}
    (hpin : s.resetPin = false) (hm : prog[u]? = some m) (hsound : m.Sound) (hprog : b0.prog = .ok prog)
    (hb : b0.Begins u 0 b)
    (hnext : ∀ b0' b' p', b0'.prog = .ok prog → b0'.InOperation b' →
      Simulates s (advance ⟨m, u, prog.length⟩ (s.on b' p')) p' (Pseudo.program s.cfg fuel ms b0' p')) :
    Simulates s (s.on b p) p (Pseudo.program s.cfg fuel (m :: ms) b0 p) := by
  cases m with
  | waitIdle => exact simulates_waitIdle hpin hprog hm (fun b' p' => hnext b0 b' p' hprog) fuel 0 b p hb
  | frame tx rx dst =>
    obtain ⟨⟨i, hi⟩, hfits⟩ := hsound
    have hc := hb.current_eq hprog hm
    refine simulates_frame (c := ⟨.frame tx rx dst, u, prog.length⟩) hpin hb hc hi fun bytes buf q hbuf => ?_
    have hstore : store dst (deselect (s.on (b.received buf) q)).blk =
        .ok ({ b.received buf with cs := false }.record dst bytes) := store_eq_record hfits hbuf
    have hend : endFrame (s.on (b.received buf) q) = .next (advance ⟨.frame tx rx dst, u, prog.length⟩
        (s.on ({ b.received buf with cs := false }.record dst bytes) (Pseudo.deselect q))) := by
      have hpend : (b.received buf).pend = none := hb.pend
      have hcurrent : (b.received buf).current = _ := hc
      simp only [endFrame, on_blk, hpend, hcurrent, hstore]
      rfl
    exact ⟨_, hend, hnext _ _ _ (by rw [prog_record, hprog]) (hb.stored dst bytes buf)⟩

/-- What a suffix of a list says of the whole: its head's place, the suffix after it, and the length. -/
theorem of_drop_eq_cons {α : Type} {l rest : List α} {x : α} {u : Nat} (h : l.drop u = x :: rest) :
    l[u]? = some x ∧ l.drop (u + 1) = rest ∧ l.length = u + 1 + rest.length := by
  refine ⟨?_, ?_, ?_⟩
  · rw [← Nat.add_zero u, ← List.getElem?_drop, h, List.getElem?_cons_zero]
  · rw [← List.drop_drop, h, List.drop_one, List.tail_cons]
  · have hlen := congrArg List.length h
    rw [List.length_drop, List.length_cons] at hlen
    omega

/-- From the beginning of any micro-operation on, the machine does as the rest of the micro-program read as pseudocode. -/
theorem simulates_program {s : State} {prog : List MicroOp} (hpin : s.resetPin = false)
    (hsound : ∀ m ∈ prog, m.Sound) (fuel : Nat) (ms : List MicroOp) :
    ∀ (m : MicroOp) (u : Nat) (b0 b : Block) (p : Scene), prog.drop u = m :: ms →
      b0.prog = .ok prog → b0.Begins u 0 b →
      Simulates s (s.on b p) p (Pseudo.program s.cfg fuel (m :: ms) b0 p) := by
  induction ms with
  | nil =>
    intro m u b0 b p hdrop hprog hb
    obtain ⟨hm, -, hlen⟩ := of_drop_eq_cons hdrop
    refine simulates_microOp hpin hm (hsound m (List.mem_of_getElem? hm)) hprog hb fun b0' b' p' _ hb' => ?_
    exact simulates_advance hb' (fun _ => rfl) fun hmore => absurd hlen.symm hmore
  | cons m' ms ih =>
    intro m u b0 b p hdrop hprog hb
    obtain ⟨hm, hdrop', hlen⟩ := of_drop_eq_cons hdrop
    refine simulates_microOp hpin hm (hsound m (List.mem_of_getElem? hm)) hprog hb fun b0' b' p' hprog' hb' => ?_
    have hmore : u + 1 ≠ prog.length := by rw [hlen, List.length_cons]; omega
    exact simulates_advance hb' (fun hlast => absurd hlast hmore) fun _ b'' hb'' =>
      ih m' (u + 1) b0' b'' p' hdrop' hprog' hb''

/-- The block's micro-program consists of polls and of frames of wire instructions, and read as pseudocode it is `pseudocode`. -/
def Block.Performs (cfg : Cfg) (fuel : Nat) (b : Block) (pseudocode : Scene → Run Response) : Prop :=
  ∃ m ms, b.prog = .ok (m :: ms) ∧ List.Forall MicroOp.Sound (m :: ms) ∧
    ∀ p, pseudocode p = Pseudo.program cfg fuel (m :: ms) b p

/-- A write-class micro-program (R141). -/
theorem writeClass_performs {b : Block} {command : List Byte} {i : Instr} (cfg : Cfg) (fuel : Nat)
    (hprog : b.prog = .ok (writeClass (.frame command none .none))) (hi : encode i = .frame command none)
    (hok : okResponse b = Pseudo.okPlain) : b.Performs cfg fuel (Pseudo.writeClass cfg fuel command) := by
  refine ⟨_, _, hprog, ⟨trivial, ⟨⟨.wren, rfl⟩, trivial⟩, trivial, ⟨i, hi⟩, trivial⟩, fun p => ?_⟩
  simp only [Pseudo.program, bareFrame, Block.record, hok]
  rfl

/-- A block that has accepted an operation has the operation's pseudocode as its micro-program (R140, R190 to R234). -/
theorem operation_performs {b : Block} {op : HostOp} {a : Addr} {n : Nat} {d : List Byte} (cfg : Cfg) (fuel : Nat)
    (hop : b.op = some op) (haddr : b.addr = some a) (hlen : b.len = some n)
    (hpayload : op = .programPage → b.payload = some d) :
    b.Performs cfg fuel (Pseudo.operation cfg fuel op a n d) := by
  have hreadOp : b.readOp = .ok op := by simp [Block.readOp, hop]
  have hreadAddr : b.readAddr = .ok a := by simp [Block.readAddr, haddr]
  cases op with
  | setWriteEnable =>
    refine ⟨.waitIdle, [bareFrame opcWREN], by simp [Block.prog, hreadOp, progSetWriteEnable],
      ⟨trivial, ⟨.wren, rfl⟩, trivial⟩, fun p => ?_⟩
    simp only [Pseudo.program, bareFrame, Block.record, okResponse, hop]
    rfl
  | setWriteDisable =>
    refine ⟨bareFrame opcWRDI, [], by simp [Block.prog, hreadOp, progSetWriteDisable],
      ⟨⟨.wrdi, rfl⟩, trivial⟩, fun p => ?_⟩
    simp only [Pseudo.program, bareFrame, Block.record, okResponse, hop]
    rfl
  | queryBusy =>
    refine ⟨.frame (txBytes .w1 opcRDSR1 0 []) (some 1) .bq, [], by simp [Block.prog, hreadOp, progQueryBusy],
      ⟨⟨.rdsr1, rfl⟩, rfl⟩, fun p => ?_⟩
    simp only [Pseudo.program, Block.record, okResponse, hop]
    rfl
  | readStatusSnapshot =>
    refine ⟨.frame (txBytes .w1 opcRDSR1 0 []) (some 1) .sr1, [.frame (txBytes .w1 opcRDSR2 0 []) (some 1) .sr2],
      by simp [Block.prog, hreadOp, progReadStatusSnapshot], ⟨⟨⟨.rdsr1, rfl⟩, rfl⟩, ⟨.rdsr2, rfl⟩, rfl⟩,
      fun p => ?_⟩
    simp only [Pseudo.program, Block.record, okResponse, hop]
    rfl
  | eraseSector =>
    exact writeClass_performs (command := txBytes .w2 opcSE a []) (i := .se a) cfg fuel
      (by simp [Block.prog, hreadOp, progEraseSector, hreadAddr]) rfl
      (by simp [okResponse, hop, Pseudo.okPlain])
  | eraseChip =>
    exact writeClass_performs (command := txBytes .w0 opcCE 0 []) (i := .ce) cfg fuel
      (by simp [Block.prog, hreadOp, progEraseChip, bareFrame]) rfl
      (by simp [okResponse, hop, Pseudo.okPlain])
  | programPage =>
    have hreadPayload : b.readPayload = .ok d := by simp [Block.readPayload, hpayload rfl]
    exact writeClass_performs (command := txBytes .w3 opcPP a d) (i := .pp a d) cfg fuel
      (by simp [Block.prog, hreadOp, progProgramPage, hreadAddr, hreadPayload]) rfl
      (by simp [okResponse, hop, Pseudo.okPlain])
  | readData =>
    have hreadLen : b.readLen = .ok n := by simp [Block.readLen, hlen]
    refine ⟨.waitIdle, [.frame (txBytes .w4 opcREAD a []) (some n) .rd],
      by simp [Block.prog, hreadOp, progReadData, hreadAddr, hreadLen], ⟨trivial, ⟨.read a n, rfl⟩, n, rfl⟩,
      fun p => ?_⟩
    simp only [Pseudo.program, Block.record, okResponse, hop]
    rfl
  | resetDevice =>
    refine ⟨bareFrame opcRSTEN, [bareFrame opcRST], by simp [Block.prog, hreadOp, progResetDevice],
      ⟨⟨⟨.rsten, rfl⟩, trivial⟩, ⟨.rst, rfl⟩, trivial⟩, fun p => ?_⟩
    simp only [Pseudo.program, bareFrame, Block.record, okResponse, hop]
    rfl

end Sys2Proof.Machine

open Sys2Proof Sys2Proof.Machine Sys2Proof.Claims

/-- Settles O35: the pseudocode of an operation is its micro-program read as pseudocode, and the machine simulates that from its first micro-operation on. -/
theorem stepMachineRunsThePseudocode : Obligations.StepMachineRunsThePseudocode := by
  intro s s0 op a n d payload fuel h hpin hcs hpayload
  obtain ⟨m, ms, hprog, hsound, hoperation⟩ :=
    operation_performs s.cfg fuel h.op h.addr h.len (fun hop => h.payload.trans (hpayload hop))
  have hbegins : s0.blk.Begins 0 0 s0.blk :=
    ⟨⟨h.phase, h.cs.trans hcs, h.pend, ⟨rfl, rfl, rfl, rfl⟩, ⟨rfl, rfl, rfl, rfl⟩⟩, h.upc, h.fstep, h.polls⟩
  obtain ⟨t, ⟨k, hk, hlen⟩, hshows⟩ := simulates_program (s := s0) (h.pin.trans hpin)
    (List.forall_iff_forall_mem.mp hsound) fuel ms m 0 s0.blk s0.blk ⟨s0.world, s0.trace⟩ rfl hprog hbegins
  rw [h.cfg, ← hoperation] at hlen hshows
  constructor
  · intro r p hr
    obtain ⟨hscene, hended⟩ := hshows.of_result hr
    rw [hscene] at hlen
    exact ⟨k, t, hk, hlen, hended.phase, hended.cs, hended.trace, hended.world, hended.ports⟩
  · intro p hp
    rw [hp] at hlen hshows
    exact ⟨k, t, hk, hlen, hshows⟩
end

section
/-! The guard of R173: in every micro-program a frame that needs an idle device directly follows a WAIT_IDLE (R140, R141), and every step keeps what its sub-step says of the trace. -/

namespace Sys2Proof.Machine

/-! The guard in the trace. -/

/-- The micro-operation's frame may be sent whatever the trace: its opcode needs no idle device. -/
def MicroOp.Unguarded (m : MicroOp) : Prop := ∀ revTrace, mayOpen m revTrace = true

theorem mayOpen_of_afterIdlePoll {revTrace : List Event} (h : afterIdlePoll revTrace = true) (m : MicroOp) :
    mayOpen m revTrace = true := by
  unfold mayOpen
  split <;> simp [h]

/-- A Transmit keeps the guard of the trace exactly where the frame may be sent. -/
theorem guardedRev_transmit (m : MicroOp) (r : TxResult) (revTrace : List Event) :
    guardedRev (.tx m.tx r :: revTrace) = (mayOpen m revTrace && guardedRev revTrace) := by
  unfold mayOpen
  split <;> simp [guardedRev, *]

/-- Once its poll frame is closed, a byte that decodes to NotBusy lets the next frame open (R143, R173). -/
theorem afterIdlePoll_of_notBusy {x : Byte} (h : decodeBusy x = .notBusy) (earlier : List Event) :
    afterIdlePoll (.sel :: .desel :: .rx 1 (.ok [x]) :: .tx [opcRDSR1] .ok :: earlier) = true := by
  have hbit : x &&& 0x01 = 0x00 := by
    by_contra hbit
    simp only [decodeBusy, if_neg hbit] at h
    split at h <;> cases h
  simpa [afterIdlePoll] using hbit

/-! The guard in the micro-programs. -/

/-- A micro-program that keeps the guard: its micro-operations are polls and wire instructions, it begins with a frame that needs no idle device, and every frame that needs one directly follows a WAIT_IDLE (R140, R141, R173). -/
structure KeepsGuard (p : List MicroOp) : Prop where
  sound : List.Forall MicroOp.Sound p
  first : ∀ m ∈ p.head?, m.Unguarded
  next : p.IsChain fun m m' => m = .waitIdle ∨ m'.Unguarded

theorem waitIdle_unguarded : MicroOp.waitIdle.Unguarded := fun _ => rfl

theorem keepsGuard_one {m : MicroOp} (hsound : m.Sound) (hfirst : m.Unguarded) : KeepsGuard [m] :=
  ⟨hsound, by simpa using hfirst, by simp⟩

theorem keepsGuard_two {m m' : MicroOp} (hsound : m.Sound) (hsound' : m'.Sound) (hfirst : m.Unguarded)
    (hnext : m = .waitIdle ∨ m'.Unguarded) : KeepsGuard [m, m'] :=
  ⟨⟨hsound, hsound'⟩, by simpa using hfirst, by simpa using hnext⟩

/-- The write-enable step waits before WREN and again before the command frame (R141). -/
theorem keepsGuard_writeClass {m : MicroOp} (hsound : m.Sound) : KeepsGuard (writeClass m) :=
  ⟨⟨trivial, ⟨⟨.wren, rfl⟩, trivial⟩, trivial, hsound⟩, by simp [writeClass, waitIdle_unguarded],
    by simp [writeClass, waitIdle_unguarded]⟩

/-- Every operation's micro-program keeps the guard (R140). -/
theorem prog_keepsGuard {b : Block} {p : List MicroOp} (h : b.prog = .ok p) : KeepsGuard p := by
  cases hop : b.op with
  | none => simp [Block.prog, Block.readOp, hop] at h
  | some op =>
    simp only [Block.prog, Block.readOp, hop] at h
    cases op with
    | setWriteEnable =>
      cases h
      exact keepsGuard_two trivial ⟨⟨.wren, rfl⟩, trivial⟩ waitIdle_unguarded (.inl rfl)
    | setWriteDisable => cases h; exact keepsGuard_one ⟨⟨.wrdi, rfl⟩, trivial⟩ fun _ => rfl
    | queryBusy => cases h; exact keepsGuard_one ⟨⟨.rdsr1, rfl⟩, rfl⟩ fun _ => rfl
    | readStatusSnapshot =>
      cases h
      exact keepsGuard_two ⟨⟨.rdsr1, rfl⟩, rfl⟩ ⟨⟨.rdsr2, rfl⟩, rfl⟩ (fun _ => rfl) (.inr fun _ => rfl)
    | eraseSector =>
      cases ha : b.readAddr with
      | error f => simp [progEraseSector, ha] at h
      | ok a =>
        simp only [progEraseSector, ha] at h
        cases h
        exact keepsGuard_writeClass ⟨⟨.se a, rfl⟩, trivial⟩
    | eraseChip => cases h; exact keepsGuard_writeClass ⟨⟨.ce, rfl⟩, trivial⟩
    | programPage =>
      cases ha : b.readAddr with
      | error f => simp [progProgramPage, ha] at h
      | ok a =>
        cases hd : b.readPayload with
        | error f => simp [progProgramPage, ha, hd] at h
        | ok d =>
          simp only [progProgramPage, ha, hd] at h
          cases h
          exact keepsGuard_writeClass ⟨⟨.pp a d, rfl⟩, trivial⟩
    | readData =>
      cases ha : b.readAddr with
      | error f => simp [progReadData, ha] at h
      | ok a =>
        cases hn : b.readLen with
        | error f => simp [progReadData, ha, hn] at h
        | ok n =>
          simp only [progReadData, ha, hn] at h
          cases h
          exact keepsGuard_two trivial ⟨⟨.read a n, rfl⟩, n, rfl⟩ waitIdle_unguarded (.inl rfl)
    | resetDevice =>
      cases h
      exact keepsGuard_two ⟨⟨.rsten, rfl⟩, trivial⟩ ⟨⟨.rst, rfl⟩, trivial⟩ (fun _ => rfl) (.inr fun _ => rfl)

/-- The current micro-operation's frame is that of a wire instruction (R90). -/
theorem exists_encode_of_current {b : Block} {c : Current} (h : b.current = .ok c) :
    ∃ i, encode i = .frame c.mop.tx c.mop.rx := by
  obtain ⟨p, hprog, -, hmop, -⟩ := current_ok h
  have hsound := List.forall_iff_forall_mem.mp (prog_keepsGuard hprog).sound _ (List.mem_of_getElem? hmop)
  cases hm : c.mop with
  | waitIdle => exact ⟨.rdsr1, rfl⟩
  | frame tx rx dst => rw [hm] at hsound; exact hsound.1

/-- The first micro-operation needs no idle device. -/
theorem unguarded_of_upc_zero {b : Block} {c : Current} (h : b.current = .ok c) (hzero : b.upc = some 0) :
    c.mop.Unguarded := by
  obtain ⟨p, hprog, hupc, hmop, -⟩ := current_ok h
  have hfirst : c.upc = 0 := Option.some.inj (hupc.symm.trans hzero)
  rw [hfirst, ← List.head?_eq_getElem?] at hmop
  exact (prog_keepsGuard hprog).first _ hmop

/-- Of two successive micro-operations the first is a WAIT_IDLE, or the second needs no idle device. -/
theorem waitIdle_or_unguarded {b b' : Block} {c c' : Current} (hc : b.current = .ok c) (hc' : b'.current = .ok c')
    (hprog : b'.prog = b.prog) (hupc : b'.upc = some (c.upc + 1)) : c.mop = .waitIdle ∨ c'.mop.Unguarded := by
  obtain ⟨p, hp, -, hmop, -⟩ := current_ok hc
  obtain ⟨p', hp', hupc', hmop', -⟩ := current_ok hc'
  obtain rfl : p' = p := Except.ok.inj (hp'.symm.trans (hprog.trans hp))
  have hnext : c'.upc = c.upc + 1 := Option.some.inj (hupc'.symm.trans hupc)
  rw [hnext] at hmop'
  obtain ⟨_, hmop⟩ := List.getElem?_eq_some_iff.mp hmop
  obtain ⟨hlt, hmop'⟩ := List.getElem?_eq_some_iff.mp hmop'
  rw [← hmop, ← hmop']
  exact (prog_keepsGuard hp).next.getElem c.upc hlt

/-! The guard of a state. -/

/-- What `State.Guarded` says of a running block at a sub-step of the micro-operation `m`. -/
def State.GuardedAt (s : State) (m : MicroOp) : FStep → Prop
  | .sel => mayOpen m (.sel :: s.trace.reverse) = true
  | .tx => mayOpen m s.trace.reverse = true
  | .rx => m = .waitIdle → ∃ t, s.trace.reverse = .tx [opcRDSR1] .ok :: t
  | .desel => s.blk.pend = none → m = .waitIdle →
      ∃ bs t, s.blk.rxbuf = some bs ∧ s.trace.reverse = .rx 1 (.ok bs) :: .tx [opcRDSR1] .ok :: t

theorem guarded_iff_of_fstep {s : State} {st : FStep} (h : s.blk.fstep = some st) :
    s.Guarded ↔ guardedRev s.trace.reverse = true ∧
      (s.blk.phase = .run → ∀ c, s.blk.current = .ok c → s.GuardedAt c.mop st) := by
  cases st <;> simp [State.Guarded, State.GuardedAt, h]

theorem State.Guarded.guardedAt {s : State} (hg : s.Guarded) {st : FStep} {c : Current} (hrun : s.blk.phase = .run)
    (hc : s.blk.current = .ok c) (hst : s.blk.fstep = some st) : s.GuardedAt c.mop st :=
  ((guarded_iff_of_fstep hst).mp hg).2 hrun c hc

theorem guarded_of_guardedAt {s : State} {st : FStep} {c : Current} (htrace : guardedRev s.trace.reverse = true)
    (hc : s.blk.current = .ok c) (hst : s.blk.fstep = some st) (hat : s.GuardedAt c.mop st) : s.Guarded := by
  refine (guarded_iff_of_fstep hst).mpr ⟨htrace, fun _ c' hc' => ?_⟩
  obtain rfl : c = c' := Except.ok.inj (hc.symm.trans hc')
  exact hat

theorem guarded_iff_of_idle {s : State} (h : s.blk.phase = .idle) :
    s.Guarded ↔ guardedRev s.trace.reverse = true := by
  simp [State.Guarded, h]

/-! The guard along a step. -/

theorem guarded_finish {o : OpOutcome} {s : State} (htrace : guardedRev s.trace.reverse = true) :
    (finish o s).Guarded :=
  (guarded_iff_of_idle rfl).mpr (by simpa [guardedRev] using htrace)

/-- Advance keeps the guard: what follows a WAIT_IDLE finds the poll that ended it, and nothing else needs one (R141, R150). -/
theorem guarded_advance {c : Current} {s : State} (hc : s.blk.current = .ok c)
    (htrace : guardedRev s.trace.reverse = true)
    (hpoll : c.mop = .waitIdle → afterIdlePoll (.sel :: s.trace.reverse) = true) : (advance c s).Guarded := by
  by_cases hlast : c.upc + 1 = c.size
  · rw [advance_last hlast]
    exact guarded_finish htrace
  · rw [advance_more hlast]
    refine (guarded_iff_of_fstep rfl).mpr ⟨htrace, fun _ c' hc' => ?_⟩
    obtain hm | hunguarded := waitIdle_or_unguarded hc hc' (prog_congr rfl rfl rfl rfl) rfl
    · exact mayOpen_of_afterIdlePoll (hpoll hm) c'.mop
    · exact hunguarded _

/-- The poll's decision keeps the guard: it advances only after a NotBusy byte, and else polls again or ends (R144). -/
theorem guarded_pollDecision {c : Current} {x : Byte} {s : State} (hc : s.blk.current = .ok c)
    (hm : c.mop = .waitIdle) (htrace : guardedRev s.trace.reverse = true)
    (hpoll : decodeBusy x = .notBusy → afterIdlePoll (.sel :: s.trace.reverse) = true) :
    (pollDecision c (decodeBusy x) s).Guarded := by
  cases hx : decodeBusy x with
  | notBusy => exact guarded_advance hc htrace fun _ => hpoll hx
  | indeterminate => exact guarded_finish htrace
  | busy =>
    simp only [pollDecision]
    split
    · exact guarded_finish htrace
    · exact guarded_of_guardedAt htrace hc rfl (by rw [hm]; exact waitIdle_unguarded _)

/-- A block about to run its first micro-operation keeps the guard of its trace (R23). -/
theorem guarded_accept {op : HostOp} {a : Addr} {n : Nat} {p : Option (List Byte)} {s t : State}
    (hg : s.Guarded) (h : accept op a n p s = .next t) : t.Guarded := by
  obtain ⟨-, rfl⟩ := accept_next h
  refine (guarded_iff_of_fstep rfl).mpr ⟨by simpa [guardedRev] using hg.1, fun _ c hc => ?_⟩
  exact unguarded_of_upc_zero hc rfl _

/-- A block reset sends nothing (R292). -/
theorem guarded_blockReset {s : State} (hg : s.Guarded) : (blockReset s).Guarded := by
  refine (guarded_iff_of_idle rfl).mpr ?_
  unfold blockReset
  split
  · simpa [guardedRev] using hg.1
  · exact hg.1

section
variable {s : State} {c : Current} (hg : s.Guarded) (hrun : s.blk.phase = .run) (hc : s.blk.current = .ok c)
include hg hrun hc

theorem guarded_select (hsel : s.blk.fstep = some .sel) : (select s).Guarded := by
  have hopen : mayOpen c.mop (.sel :: s.trace.reverse) = true := hg.guardedAt hrun hc hsel
  exact guarded_of_guardedAt (by simpa [guardedRev] using hg.1) hc rfl (by simpa [State.GuardedAt] using hopen)

/-- The one event the guard is about: the frame was allowed to open, so it may be sent. -/
theorem guarded_transmit (htx : s.blk.fstep = some .tx) : (transmit c.mop.tx c.mop.rx s).Guarded := by
  have hopen : mayOpen c.mop s.trace.reverse = true := hg.guardedAt hrun hc htx
  have htrace : guardedRev (transmit c.mop.tx c.mop.rx s).trace.reverse = true := by
    simp [guardedRev_transmit, hopen, hg.1]
  have hcurrent : (transmit c.mop.tx c.mop.rx s).blk.current = .ok c := by
    rw [← hc]; apply current_congr <;> simp
  cases hres : s.world.txResult with
  | err e =>
    have hblk := transmit_blk_err (tx := c.mop.tx) (rx := c.mop.rx) hres
    exact guarded_of_guardedAt (st := .desel) htrace hcurrent (by rw [hblk]) (by simp [State.GuardedAt, hblk])
  | ok =>
    have hblk := transmit_blk_ok (tx := c.mop.tx) (rx := c.mop.rx) hres
    cases hrx : c.mop.rx.isSome with
    | true =>
      refine guarded_of_guardedAt (st := .rx) htrace hcurrent (by rw [hblk, hrx]; rfl) fun hm => ?_
      exact ⟨s.trace.reverse, by simp [hres, hm, MicroOp.tx, txBytes]⟩
    | false =>
      refine guarded_of_guardedAt (st := .desel) htrace hcurrent (by rw [hblk, hrx]; rfl) fun _ hm => ?_
      rw [hm] at hrx
      cases hrx

theorem guarded_receive {n : Nat} (hfstep : s.blk.fstep = some .rx) (hrx : c.mop.rx = some n) :
    (receive n s).Guarded := by
  have hsent := hg.guardedAt hrun hc hfstep
  have htrace : guardedRev (receive n s).trace.reverse = true := by simpa [guardedRev] using hg.1
  have hcurrent : (receive n s).blk.current = .ok c := by
    rw [← hc]; apply current_congr <;> simp
  cases hres : s.world.rxResult s.cfg n with
  | err e =>
    have hblk := receive_blk_err hres
    exact guarded_of_guardedAt (st := .desel) htrace hcurrent (by rw [hblk]) (by simp [State.GuardedAt, hblk])
  | ok bytes =>
    have hblk := receive_blk_ok hres
    refine guarded_of_guardedAt (st := .desel) htrace hcurrent (by rw [hblk]) fun _ hm => ?_
    obtain ⟨earlier, hearlier⟩ := hsent hm
    obtain rfl : 1 = n := by rw [hm] at hrx; exact Option.some.inj hrx
    exact ⟨bytes, earlier, by rw [hblk], by simp [hres, hearlier]⟩

/-- A poll's Deselect finds its own frame in the trace, with the byte it decides on (R35, R144). -/
theorem guarded_endFrame {t : State} (hinv : RunInv s.cfg s.blk c .desel) (hdesel : s.blk.fstep = some .desel)
    (h : endFrame s = .next t) : t.Guarded := by
  have htrace : guardedRev (deselect s).trace.reverse = true := by simpa [guardedRev] using hg.1
  obtain ⟨o, -, rfl⟩ | ⟨hpend, hm, x, hx, rfl⟩ | ⟨-, tx, rx, dst, b, hm, hstore, rfl⟩ := endFrame_cases hc h
  · exact guarded_finish htrace
  · refine guarded_pollDecision hc hm htrace fun hidle => ?_
    obtain ⟨bytes, earlier, hbuf, hframe⟩ := hg.guardedAt hrun hc hdesel hpend hm
    obtain ⟨bytes', hbuf', hone⟩ := hinv.received 1 rfl hpend (by rw [hm]; rfl)
    obtain rfl : bytes = bytes' := Option.some.inj (hbuf.symm.trans hbuf')
    obtain ⟨y, rfl⟩ := List.length_eq_one_iff.mp hone
    obtain rfl : y = x := by simpa [Block.readRx0, hbuf] using hx
    simpa [hframe] using afterIdlePoll_of_notBusy hidle earlier
  · obtain ⟨⟨hop, haddr, hlen, hpayload⟩, -, hupc, -⟩ := store_frame hstore
    have hcurrent : b.current = .ok c := (current_congr hop haddr hlen hpayload hupc).trans hc
    exact guarded_advance hcurrent htrace (by simp [hm])

end

/-- While an operation runs, every step keeps the guard. -/
theorem guarded_step_run {s t : State} (hinv : s.blk.Inv s.cfg) (hg : s.Guarded) (hpin : s.resetPin = false)
    (hrun : s.blk.phase = .run) (h : step s = .next t) : t.Guarded := by
  rw [Block.Inv, hrun] at hinv
  obtain ⟨c, st, hc, hst, hframe⟩ := hinv
  obtain ⟨i, hi⟩ := exists_encode_of_current hc
  rw [step_eq_frameEvent hpin hrun hc hi] at h
  obtain ⟨-, ⟨hsel, rfl⟩ | ⟨htx, rfl⟩ | ⟨n, hfstep, hrx, rfl⟩ | ⟨hdesel, hend⟩⟩ := frameEvent_cases h
  · exact guarded_select hg hrun hc hsel
  · exact guarded_transmit hg hrun hc htx
  · exact guarded_receive hg hrun hc hfstep hrx
  · obtain rfl : st = .desel := Option.some.inj (hst.symm.trans hdesel)
    exact guarded_endFrame hg hrun hc hframe hdesel hend

/-- An IDLE block's instruction can only be the acceptance of a command (R36). -/
theorem guarded_exec_idle {i : Instr} {s t : State} (hg : s.Guarded) (hidle : s.blk.phase = .idle)
    (h : exec i s = .next t) : t.Guarded := by
  cases hencode : encode i with
  | frame tx rx =>
    rw [exec_of_frame hencode, frameEvent_idle hidle] at h
    cases h
  | command cmd =>
    obtain ⟨op, a, n, p, hexec, -⟩ := exec_of_command hencode s
    exact guarded_accept hg (hexec.symm.trans h)

end Sys2Proof.Machine

open Sys2Proof Sys2Proof.Machine

/-- Settles O40: a step of a running block is its frame's next event, which keeps the guard; every other step transmits nothing. -/
theorem guardedFramesFollowAnIdlePoll : Obligations.GuardedFramesFollowAnIdlePoll := by
  intro s t hinv hg hstep
  obtain ⟨-, rfl⟩ | ⟨-, -, -, rfl⟩ | ⟨-, hidle, cmd, rest, -, -, rfl⟩ | ⟨-, hidle, cmd, rest, i, -, -, hexec⟩ |
    ⟨hpin, hrun, -⟩ := step_cases hstep
  · exact guarded_blockReset hg
  · exact hg
  · exact (guarded_iff_of_idle (s := illegalCommand cmd s) hidle).mpr (by simpa [guardedRev] using hg.1)
  · exact guarded_exec_idle hg hidle hexec
  · exact guarded_step_run hinv.blk hg hpin hrun hstep
end

section
/-! The run of a whole operation, read off its pseudocode (R153), and the frames the pseudocode of setWriteDisable can make (R193). -/

namespace Sys2Proof.Machine

open Sys2Proof.Claims

/-- The run of an operation whose pseudocode comes to the response `r`: a step for each event of the pseudocode, and the response with the last. -/
theorem endsWith_of_result {s s0 : State} {op : HostOp} {a : Addr} {n k fuel : Nat} {d : List Byte}
    {payload : Option (List Byte)} {r : Response} {p : Scene} {events : List Event} {rest : List Answer}
    (h : Accepted op a n payload s s0) (hpin : s.resetPin = false) (hcs : s.blk.cs = false)
    (hpayload : op = .programPage → payload = some d)
    (hr : Pseudo.result (Pseudo.operation s.cfg fuel op a n d ⟨s0.world, s0.trace⟩) = some (r, p))
    (htrace : p.trace = s0.trace ++ events) (hk : events.length = k) (hrest : p.world.answers = rest) :
    EndsWith k s0 (events ++ [.resp r]) rest := by
  obtain ⟨k', t, hrun, hlen, hidle, htcs, httrace, hworld, hports⟩ :=
    (stepMachineRunsThePseudocode s s0 op a n d payload fuel h hpin hcs hpayload).1 r p hr
  obtain rfl : k' = k := by rw [htrace, List.length_append, hk] at hlen; omega
  exact ⟨t, hrun, hidle, htcs, by rw [httrace, htrace, List.append_assoc], by rw [hworld, hrest], hports⟩

/-- A frame without a receive part whose Transmit succeeds (R134). -/
theorem exists_frame_sent {cfg : Cfg} {p : Scene} {bs : List Byte} {rest : List Answer}
    (h : p.world.answers = .ok bs :: rest) (tx : List Byte) :
    ∃ q, Pseudo.frame cfg tx none p = .done [] q ∧ q.trace = p.trace ++ sentEvents tx ∧ q.world.answers = rest := by
  have hres : (Pseudo.select cfg p).world.txResult = .ok := txResult_ok ((select_answers p.world cfg).trans h)
  refine ⟨Pseudo.deselect (Pseudo.transmit tx (Pseudo.select cfg p)), by simp [Pseudo.frame, hres], ?_, ?_⟩
  · simp only [Pseudo.deselect, Pseudo.transmit, hres]
    simp [Pseudo.select, sentEvents]
  · simp [Pseudo.deselect, Pseudo.transmit, Pseudo.select, h]

/-- A frame whose Transmit fails: no Receive, and the error is raised after the Deselect (R134, R135). -/
theorem exists_frame_txErr {cfg : Cfg} {p : Scene} {e : TErr} {reached : Nat} {rest : List Answer}
    (h : p.world.answers = .err e reached :: rest) (tx : List Byte) (rx : Option Nat) :
    ∃ q, Pseudo.frame cfg tx rx p = .raised (.transportError e) q ∧
      q.trace = p.trace ++ [.sel, .tx tx (.err e), .desel] ∧ q.world.answers = rest := by
  have hres : (Pseudo.select cfg p).world.txResult = .err e := txResult_err ((select_answers p.world cfg).trans h)
  refine ⟨Pseudo.deselect (Pseudo.transmit tx (Pseudo.select cfg p)), by simp [Pseudo.frame, hres], ?_, ?_⟩
  · simp only [Pseudo.deselect, Pseudo.transmit, hres]
    simp [Pseudo.select]
  · simp [Pseudo.deselect, Pseudo.transmit, Pseudo.select, h]

end Sys2Proof.Machine

open Sys2Proof Sys2Proof.Machine Sys2Proof.Claims

/-- Settles O26: the pseudocode is one frame without a receive part, three events whether its Transmit succeeds or fails, and the machine runs the pseudocode for every device (O35). -/
theorem setWriteDisableRun : Obligations.SetWriteDisableRun := by
  intro s s0 a n ans rest h hpin hcs hanswers
  rw [← h.world] at hanswers
  cases ans with
  | ok bs =>
    obtain ⟨q, hframe, htrace, hrest⟩ :=
      exists_frame_sent (cfg := s.cfg) (p := ⟨s0.world, s0.trace⟩) hanswers [0x04]
    exact endsWith_of_result (fuel := 0) (d := []) (r := Pseudo.okPlain) h hpin hcs (by simp)
      (by rw [Pseudo.operation, Pseudo.setWriteDisable, hframe]; rfl) htrace rfl hrest
  | err e reached =>
    obtain ⟨q, hframe, htrace, hrest⟩ :=
      exists_frame_txErr (cfg := s.cfg) (p := ⟨s0.world, s0.trace⟩) hanswers [0x04] none
    exact endsWith_of_result (fuel := 0) (d := []) (r := Pseudo.abortResponse (.transportError e)) h hpin hcs (by simp)
      (by rw [Pseudo.operation, Pseudo.setWriteDisable, hframe]; rfl) htrace rfl hrest
end

section
/-! The status of the response a step of a running operation delivers (R256). -/

namespace Sys2Proof.Machine

open Sys2Proof.Claims

/-- A response's status is its outcome's code and nothing else (R103). -/
theorem responseFor_status (o : OpOutcome) (b : Block) : (responseFor o b).status = o.status := by
  rw [responseFor_eq]

/-- Only the five waiting operations have a WAIT_IDLE in their micro-program (R140, R256). -/
theorem waits_of_waitIdle_mem {b : Block} {op : HostOp} {p : List MicroOp} (hop : b.op = some op)
    (hprog : b.prog = .ok p) (hmem : .waitIdle ∈ p) : Waits op := by
  simp only [Block.prog, Block.readOp, hop] at hprog
  cases op with
  | setWriteEnable | eraseSector | eraseChip | programPage | readData => simp [Waits]
  | setWriteDisable | queryBusy | readStatusSnapshot | resetDevice => cases hprog; simp [bareFrame] at hmem

/-- An operation that stands at a WAIT_IDLE is one of the five that wait. -/
theorem waits_of_current {b : Block} {op : HostOp} {c : Current} (hop : b.op = some op)
    (hc : b.current = .ok c) (hm : c.mop = .waitIdle) : Waits op := by
  obtain ⟨p, hprog, -, hmop, -⟩ := current_ok hc
  rw [hm] at hmop
  exact waits_of_waitIdle_mem hop hprog (List.mem_of_getElem? hmop)

/-- Only a bounded POLL_LIMIT is ever reached (R145). -/
theorem pollLimit_of_limitReached {cfg : Cfg} {k l : Nat} (h : limitReached cfg k = some l) :
    cfg.pollLimit ≠ none := by
  intro hnone
  simp [limitReached, hnone] at h

/-- The response that Finish adds has the status of its outcome. -/
theorem status_of_finish_trace {o : OpOutcome} {s : State} {r : Response}
    (h : (finish o s).trace = s.trace ++ [.resp r]) : r.status = o.status := by
  obtain rfl : responseFor o s.blk = r := by simpa using h
  exact responseFor_status o s.blk

/-- Advance ends an operation with OK or not at all (R150, R250). -/
theorem status_of_advance_trace {c : Current} {s : State} {r : Response}
    (h : (advance c s).trace = s.trace ++ [.resp r]) : r.status = .ok := by
  by_cases hlast : c.upc + 1 = c.size
  · rw [advance_last hlast] at h
    exact status_of_finish_trace h
  · simp [advance_more hlast] at h

/-- The decision of a poll ends an operation with OK, or at a bounded POLL_LIMIT: no byte decodes to Indeterminate (R28, R144, R145). -/
theorem status_of_pollDecision_trace {c : Current} {x : Byte} {s : State} {r : Response}
    (h : (pollDecision c (decodeBusy x) s).trace = s.trace ++ [.resp r]) :
    r.status = .ok ∨ (r.status = .pollLimit ∧ s.cfg.pollLimit ≠ none) := by
  cases hx : decodeBusy x with
  | notBusy => rw [hx] at h; exact .inl (status_of_advance_trace (s := { s with blk := _ }) h)
  | indeterminate => exact absurd hx (decodeBusy_ne_indeterminate x)
  | busy =>
    simp only [hx, pollDecision] at h
    split at h
    next l hlimit =>
      exact .inr ⟨status_of_finish_trace (s := { s with blk := _ }) h, pollLimit_of_limitReached hlimit⟩
    next => simp at h

/-- The end of a frame ends an operation with OK, with the pending transport error, or in a WAIT_IDLE at POLL_LIMIT (R150, R256). -/
theorem status_of_endFrame {s t : State} {c : Current} {r : Response} (hinv : RunInv s.cfg s.blk c .desel)
    (hc : s.blk.current = .ok c) (h : endFrame s = .next t) (htrace : t.trace = s.trace ++ [.desel, .resp r]) :
    r.status = .ok ∨ r.status = .transportError ∨
      (r.status = .pollLimit ∧ c.mop = .waitIdle ∧ s.cfg.pollLimit ≠ none) := by
  replace htrace : t.trace = (deselect s).trace ++ [.resp r] := by simpa using htrace
  obtain ⟨o, hpend, rfl⟩ | ⟨-, hm, x, -, rfl⟩ | ⟨-, tx, rx, dst, b, -, -, rfl⟩ := endFrame_cases hc h
  · obtain ⟨e, rfl⟩ := hinv.pendErr o hpend
    exact .inr (.inl (status_of_finish_trace htrace))
  · obtain hok | ⟨hstatus, hlimit⟩ := status_of_pollDecision_trace htrace
    · exact .inl hok
    · exact .inr (.inr ⟨hstatus, hm, hlimit⟩)
  · exact .inl (status_of_advance_trace (s := { deselect s with blk := b }) htrace)

end Sys2Proof.Machine

open Sys2Proof Sys2Proof.Machine Sys2Proof.Claims

/-- Settles O45: only the end of a frame adds a Deselect, and POLL_LIMIT comes from a WAIT_IDLE alone. -/
theorem responseStatusOfEachOperation : Obligations.ResponseStatusOfEachOperation := by
  intro s t op r hinv hpin hrun hop hstep htrace
  have hblk := hinv.blk
  rw [Block.Inv, hrun] at hblk
  obtain ⟨c, st, hc, hst, hframe⟩ := hblk
  obtain ⟨i, hi⟩ := exists_encode_of_current hc
  rw [step_eq_frameEvent hpin hrun hc hi] at hstep
  obtain ⟨-, ⟨-, rfl⟩ | ⟨-, rfl⟩ | ⟨n, -, -, rfl⟩ | ⟨hdesel, hend⟩⟩ := frameEvent_cases hstep
  · simp at htrace
  · simp at htrace
  · simp at htrace
  · obtain rfl : st = .desel := Option.some.inj (hst.symm.trans hdesel)
    obtain hok | herr | ⟨hstatus, hm, hlimit⟩ := status_of_endFrame hframe hc hend htrace
    · exact .inl hok
    · exact .inr (.inl herr)
    · exact .inr (.inr ⟨hstatus, waits_of_current hop hc hm, hlimit⟩)
end

section
/-! The IDLE block with nothing to do (R268). -/

open Sys2Proof Sys2Proof.Machine

/-- Settles O10: without a reset, an IDLE block looks only at the host's list, and finds it empty. -/
theorem idleDrivesNoEvent : Obligations.IdleDrivesNoEvent := by
  intro s hpin hidle hhost
  simp [step, hpin, hidle, hhost]
end

section
/-! The block after a block reset (R290). -/

namespace Sys2Proof.Machine

/-- R22: `ready` is 1 exactly while the block is IDLE. -/
theorem State.ready_iff {s : State} : s.ready = true ↔ s.blk.phase = .idle :=
  decide_eq_true_iff

end Sys2Proof.Machine

open Sys2Proof Sys2Proof.Machine

/-- Settles O9: `ready` and the response owed follow from the phase IDLE; every other field is read off `Block.reset`. -/
theorem resetStateOfTheBlock : Obligations.ResetStateOfTheBlock := by
  have hidle : State.reset.blk.phase = .idle := rfl
  refine ⟨hidle, State.ready_iff.mpr hidle, ?_⟩
  simp [State.reset, Block.reset, Phase.owed]
end

section
/-! Both encodings, both ways (R90 to R105): a command decodes to the instruction of its operation exactly if its fields are that instruction's, and a frame that decodes is the frame of what it decodes to. -/

namespace Sys2Proof

/-- The instruction of a host operation with its operands; only programPage has a payload (R99, R101). -/
def HostOp.instr (op : HostOp) (a : Addr) (n : Nat) (d : List Byte) : Instr :=
  match op with
  | .setWriteEnable => .setWriteEnable a n
  | .setWriteDisable => .setWriteDisable a n
  | .queryBusy => .queryBusy a n
  | .readStatusSnapshot => .readStatusSnapshot a n
  | .eraseSector => .eraseSector a n
  | .eraseChip => .eraseChip a n
  | .programPage => .programPage a n d
  | .readData => .readData a n
  | .resetDevice => .resetDevice a n

theorem opOfCmd_cmdCode (op : HostOp) : opOfCmd (cmdCode op) = some op := by
  cases op <;> rfl

/-- A command whose LEN fits and whose word selects an operation is that operation's instruction, but for its payload (R32, R101). -/
theorem decodeCommand_of_op {cfg : Cfg} {c : Command} {op : HostOp} (hlen : lenFits cfg c.len = true)
    (hrsv : rsvField c.word = 0) (hop : opOfCmd (cmdField c.word) = some op) :
    decodeCommand cfg c =
      if op = .programPage then
        if c.payload.length = c.len then .ok (op.instr (addrField c.word) c.len c.payload)
        else .error .payloadLength
      else withoutPayload c (op.instr (addrField c.word) c.len c.payload) := by
  simp only [decodeCommand, hlen, hrsv, hop]
  cases op <;> rfl

/-- A payload an operation takes: LEN bytes for programPage, none for any other (R32, R101). -/
def HostOp.Takes (op : HostOp) (n : Nat) (d : List Byte) : Prop :=
  (op = .programPage ∧ d.length = n) ∨ (op ≠ .programPage ∧ d = [])

theorem decodeCommand_of_takes {cfg : Cfg} {c : Command} {op : HostOp} (hlen : lenFits cfg c.len = true)
    (hrsv : rsvField c.word = 0) (hop : opOfCmd (cmdField c.word) = some op) (htakes : op.Takes c.len c.payload) :
    decodeCommand cfg c = .ok (op.instr (addrField c.word) c.len c.payload) := by
  rw [decodeCommand_of_op hlen hrsv hop]
  obtain ⟨hpp, hd⟩ | ⟨hpp, hd⟩ := htakes
  · rw [if_pos hpp, if_pos hd]
  · rw [if_neg hpp, withoutPayload, if_pos hd]

theorem decodeCommand_lenTooWide {cfg : Cfg} {c : Command} (hlen : lenFits cfg c.len = false) :
    decodeCommand cfg c = .error .lenTooWide := by
  rw [decodeCommand, if_pos hlen]

theorem decodeCommand_reservedBits {cfg : Cfg} {c : Command} (hlen : lenFits cfg c.len = true)
    (hrsv : rsvField c.word ≠ 0) : decodeCommand cfg c = .error .reservedBits := by
  rw [decodeCommand, if_neg (by simp [hlen]), if_pos hrsv]

theorem decodeCommand_reservedCmd {cfg : Cfg} {c : Command} (hlen : lenFits cfg c.len = true)
    (hrsv : rsvField c.word = 0) (hop : opOfCmd (cmdField c.word) = none) :
    decodeCommand cfg c = .error .reservedCmd := by
  rw [decodeCommand, if_neg (by simp [hlen]), if_neg (by simp [hrsv]), hop]

/-- What a decoded command says of its fields (R5, R32, R98 to R101). -/
theorem decodeCommand_ok {cfg : Cfg} {c : Command} {i : Instr} (h : decodeCommand cfg c = .ok i) :
    lenFits cfg c.len = true ∧ rsvField c.word = 0 ∧ ∃ op, opOfCmd (cmdField c.word) = some op ∧
      op.Takes c.len c.payload ∧ i = op.instr (addrField c.word) c.len c.payload := by
  cases hlen : lenFits cfg c.len with
  | false => rw [decodeCommand_lenTooWide hlen] at h; cases h
  | true =>
    by_cases hrsv : rsvField c.word = 0
    · cases hop : opOfCmd (cmdField c.word) with
      | none => rw [decodeCommand_reservedCmd hlen hrsv hop] at h; cases h
      | some op =>
        refine ⟨rfl, hrsv, op, rfl, ?_⟩
        rw [decodeCommand_of_op hlen hrsv hop] at h
        split at h
        next hpp =>
          split at h
          next hd => exact ⟨.inl ⟨hpp, hd⟩, (Except.ok.inj h).symm⟩
          next => cases h
        next hpp =>
          unfold withoutPayload at h
          split at h
          next hd => exact ⟨.inr ⟨hpp, hd⟩, (Except.ok.inj h).symm⟩
          next => cases h
    · rw [decodeCommand_reservedBits hlen hrsv] at h; cases h

/-- The command of an operation's instruction (R105). -/
theorem encode_instr {op : HostOp} {n : Nat} {d : List Byte} (h : op.Takes n d) (a : Addr) :
    encode (op.instr a n d) = .command ⟨cmdWord op a, n, d⟩ := by
  obtain ⟨rfl, -⟩ | ⟨hpp, rfl⟩ := h
  · rfl
  · cases op <;> rfl

theorem wf_instr {cfg : Cfg} {op : HostOp} {n : Nat} {d : List Byte} (h : op.Takes n d)
    (hlen : lenFits cfg n = true) (a : Addr) : (op.instr a n d).wf cfg = true := by
  obtain ⟨rfl, hd⟩ | ⟨hpp, rfl⟩ := h
  · simp [HostOp.instr, Instr.wf, hlen, hd]
  · cases op with
    | programPage => exact absurd rfl hpp
    | _ => exact hlen

/-- An instruction that is encoded as a command is the instruction of its operation, and if it is well formed the operation takes its payload. -/
theorem exists_instr_of_command {cfg : Cfg} {i : Instr} {c : Command} (h : encode i = .command c)
    (hwf : i.wf cfg = true) :
    ∃ op a, c.word = cmdWord op a ∧ i = op.instr a c.len c.payload ∧ op.Takes c.len c.payload ∧
      lenFits cfg c.len = true := by
  cases i <;> simp only [encode, Encoded.command.injEq, reduceCtorEq] at h <;> subst h
  case programPage a n d =>
    obtain ⟨hlen, hd⟩ : lenFits cfg n = true ∧ d.length = n := by simpa [Instr.wf] using hwf
    exact ⟨_, _, rfl, rfl, .inl ⟨rfl, hd⟩, hlen⟩
  all_goals exact ⟨_, _, rfl, rfl, .inr ⟨by decide, rfl⟩, hwf⟩

/-- A command word is built from its CMD and ADDR fields when RSV is 0 (R98, R105). -/
theorem word_of_fields {w : CmdWord} (hrsv : rsvField w = 0) :
    (cmdField w).setWidth 32 <<< 28 ||| (addrField w).setWidth 32 = w := by
  have hbits : ∀ i, 24 ≤ i → i < 28 → w.getLsbD i = false := by
    intro i hlo hhi
    have := congrArg (fun r => r.getLsbD (i - 24)) hrsv
    simpa [rsvField, show i - 24 < 4 by omega, show 24 + (i - 24) = i by omega] using this
  apply BitVec.eq_of_getLsbD_eq
  intro i hi
  simp only [cmdField, addrField, BitVec.getLsbD_or, BitVec.getLsbD_shiftLeft, BitVec.getLsbD_setWidth,
    BitVec.getLsbD_extractLsb']
  obtain h | ⟨hlo, hhi⟩ | h : i < 24 ∨ (24 ≤ i ∧ i < 28) ∨ 28 ≤ i := by omega
  · simp [h, hi, show i < 28 by omega]
  · simp [hhi, show ¬ i < 24 by omega, hbits i hlo hhi]
  · simp [hi, show ¬ i < 28 by omega, show ¬ i < 24 by omega, show i - 28 < 4 by omega,
      show i - 28 < 32 by omega, show 28 + (i - 28) = i by omega]

theorem decodeCommand_of_encode {cfg : Cfg} {i : Instr} {c : Command} (h : encode i = .command c)
    (hwf : i.wf cfg = true) : decodeCommand cfg c = .ok i := by
  obtain ⟨op, a, hword, rfl, htakes, hlen⟩ := exists_instr_of_command h hwf
  obtain ⟨hcmd, hrsv, haddr⟩ := fields_of_cmdWord op a
  rw [← hword] at hcmd hrsv haddr
  rw [decodeCommand_of_takes hlen hrsv (hcmd ▸ opOfCmd_cmdCode op) htakes, haddr]

/-- Three address bytes are those of the address they spell (R130, R131). -/
theorem addrBytes_addrOfBytes (b0 b1 b2 : Byte) : addrBytes (addrOfBytes b0 b1 b2) = [b0, b1, b2] := by
  simp only [addrBytes, List.cons.injEq, and_true]
  refine ⟨?_, ?_, ?_⟩ <;>
    (apply BitVec.eq_of_getLsbD_eq; intro i hi
     simp only [addrOfBytes, BitVec.getLsbD_extractLsb', BitVec.getLsbD_or, BitVec.getLsbD_shiftLeft,
       BitVec.getLsbD_setWidth])
  · simp [hi, show i < 24 by omega, show 16 + i < 24 by omega, show 16 + i - 8 = 8 + i by omega,
      BitVec.getLsbD_of_ge b2 (16 + i) (by omega)]
  · simp [hi, show i < 24 by omega, show 8 + i < 24 by omega, show 8 + i < 16 by omega]
  · simp [hi, show i < 24 by omega, show i < 16 by omega]

/-- Bytes that begin with an address are its address bytes and the rest (R92). -/
theorem takeAddr_ok {bs rest : List Byte} {a : Addr} (h : takeAddr bs = .ok (a, rest)) :
    bs = addrBytes a ++ rest := by
  unfold takeAddr at h
  split at h
  · cases h
    rw [addrBytes_addrOfBytes]
    rfl
  · cases h

/-- Bytes that are one whole wire instruction are its transmit part (R93, R96). -/
theorem exists_encode_of_decodeWire {n : Nat} {bs : List Byte} {i : Instr} (h : decodeWire n bs = .ok (i, [])) :
    ∃ rx, encode i = .frame bs rx := by
  unfold decodeWire at h
  split at h
  · cases h
  · split_ifs at h with hwren hwrdi hrdsr1 hrdsr2 hpp hread hse hce hrsten hrst
    · cases h; exact ⟨_, by rw [hwren]; rfl⟩
    · cases h; exact ⟨_, by rw [hwrdi]; rfl⟩
    · cases h; exact ⟨_, by rw [hrdsr1]; rfl⟩
    · cases h; exact ⟨_, by rw [hrdsr2]; rfl⟩
    · split at h
      next a data haddr => cases h; exact ⟨_, by rw [hpp, takeAddr_ok haddr]; rfl⟩
      next => cases h
    · split at h
      next a data haddr => cases h; exact ⟨_, by rw [hread, takeAddr_ok haddr]; rfl⟩
      next => cases h
    · split at h
      next a data haddr => cases h; exact ⟨_, by rw [hse, takeAddr_ok haddr]; rfl⟩
      next => cases h
    · cases h; exact ⟨_, by rw [hce]; rfl⟩
    · cases h; exact ⟨_, by rw [hrsten]; rfl⟩
    · cases h; exact ⟨_, by rw [hrst]; rfl⟩

theorem encode_of_decodeFrame {tx : List Byte} {rx : Option Nat} {i : Instr} (h : decodeFrame tx rx = .ok i) :
    encode i = .frame tx rx := by
  obtain ⟨hwire, hrx⟩ := decodeFrame_ok h
  obtain ⟨rx', hencode⟩ := exists_encode_of_decodeWire hwire
  have hshape := encodedShape i
  rw [Laws.EncodedShape.Statement, hencode] at hshape
  rw [hencode, hshape.2.1, hrx]

end Sys2Proof

open Sys2Proof Sys2Proof.Machine

/-- Settles O2: an instruction is encoded as a frame or as a command, and both decode to it. -/
theorem decodeOfEncodeIsTheInstruction : Obligations.DecodeOfEncodeIsTheInstruction := by
  intro cfg i hwf
  cases hencode : encode i with
  | frame tx rx => exact decodeFrame_of_encode hencode
  | command c => exact decodeCommand_of_encode hencode hwf

/-- Settles O3: the bytes are the instruction's transmit part, and the receive part is checked against its own. -/
theorem frameIsTheEncodingOfItsInstruction : Obligations.FrameIsTheEncodingOfItsInstruction :=
  fun _ _ _ => encode_of_decodeFrame

/-- Settles O4: with RSV 0 the word is the operation's command word, and the decoder has checked LEN and payload. -/
theorem commandIsTheEncodingOfItsInstruction : Obligations.CommandIsTheEncodingOfItsInstruction := by
  intro cfg c i h
  obtain ⟨hlen, hrsv, op, hop, htakes, rfl⟩ := decodeCommand_ok h
  have hword : cmdWord op (addrField c.word) = c.word := by
    rw [cmdWord, cmdCode_of_opOfCmd hop, word_of_fields hrsv]
  exact ⟨by rw [encode_instr htakes, hword], wf_instr htakes hlen _⟩

/-- Settles O1: the decoder reads each of the spec's words. -/
theorem specWordsDecode : Obligations.SpecWordsDecode := by
  unfold Obligations.SpecWordsDecode
  decide
end

section
/-! All a step can do (D1, R150), said once: each transition of the machine, and each way a frame can end. -/

namespace Sys2Proof.Machine

open Sys2Proof.Claims

/-- The state right after a frame's Deselect, with the poll counted or the result stored, before the operation goes on (R134, R150). -/
structure Closed (s s' : State) : Prop where
  trace : s'.trace = s.trace ++ [.desel]
  phase : s'.blk.phase = s.blk.phase
  cs : s'.blk.cs = false
  pend : s'.blk.pend = s.blk.pend
  upc : s'.blk.upc = s.blk.upc
  operands : SameOperands s.blk s'.blk
  ports : SamePorts s s'

/-- The state after the end of a frame of the micro-operation `c` (R135, R144, R145, R150). -/
inductive FrameEnd (s : State) (c : Current) : State → Prop
  /-- The pending abort ends the operation (R135). -/
  | abort {o : OpOutcome} {s' : State} (hpend : s.blk.pend = some o) (hclosed : Closed s s') :
      FrameEnd s c (finish o s')
  /-- The frame has succeeded, and the operation advances. -/
  | advanced {s' : State} (hpend : s.blk.pend = none) (hclosed : Closed s s') : FrameEnd s c (advance c s')
  /-- A Busy poll at POLL_LIMIT (R145). -/
  | limit {l : Nat} {s' : State} (hpend : s.blk.pend = none) (hm : c.mop = .waitIdle)
      (hlimit : limitReached s.cfg (s.blk.polls + 1) = some l) (hclosed : Closed s s') :
      FrameEnd s c (finish (.pollLimit l) s')
  /-- A Busy poll below POLL_LIMIT (R144). -/
  | pollAgain {s' : State} (hpend : s.blk.pend = none) (hm : c.mop = .waitIdle)
      (hlimit : limitReached s.cfg (s.blk.polls + 1) = none) (hclosed : Closed s s')
      (hpolls : s'.blk.polls = s.blk.polls + 1) (hsel : s'.blk.fstep = some .sel) : FrameEnd s c s'

theorem closed_deselect (s : State) : Closed s (deselect s) :=
  ⟨rfl, rfl, rfl, rfl, rfl, ⟨rfl, rfl, rfl, rfl⟩, rfl, rfl, rfl⟩

theorem closed_store {s : State} {dst : Dst} {b : Block} (h : store dst (deselect s).blk = .ok b) :
    Closed s { deselect s with blk := b } := by
  obtain ⟨hoperands, hphase, hupc, -, hcs, -, hpend, -⟩ := store_frame h
  exact ⟨rfl, hphase, hcs, hpend, hupc, hoperands, rfl, rfl, rfl⟩

/-- All the end of a frame can do: a poll's byte never decodes to Indeterminate (R28). -/
theorem frameEnd_of_endFrame {s t : State} {c : Current} (hc : s.blk.current = .ok c)
    (h : endFrame s = .next t) : FrameEnd s c t := by
  obtain ⟨o, hpend, rfl⟩ | ⟨hpend, hm, x, -, rfl⟩ | ⟨hpend, tx, rx, dst, b, -, hstore, rfl⟩ := endFrame_cases hc h
  · exact .abort hpend (closed_deselect s)
  · have hclosed := closed_deselect s
    cases hx : decodeBusy x with
    | indeterminate => exact absurd hx (decodeBusy_ne_indeterminate x)
    | notBusy => exact .advanced hpend { hclosed with }
    | busy =>
      simp only [pollDecision]
      split
      next l hlimit => exact .limit hpend hm hlimit { hclosed with }
      next hlimit => exact .pollAgain hpend hm hlimit { hclosed with } rfl rfl
  · exact .advanced hpend (closed_store hstore)

/-- The state after a step (D1, R150). -/
inductive Transition (s : State) : State → Prop
  /-- A block reset (R290). -/
  | reset (hpin : s.resetPin = true) : Transition s (blockReset s)
  /-- IDLE with no command presented (R268). -/
  | rest (hidle : s.blk.phase = .idle) : Transition s s
  /-- An illegal command is answered (R255). -/
  | illegal (hidle : s.blk.phase = .idle) (cmd : Command) : Transition s (illegalCommand cmd s)
  /-- A command is accepted (R23). -/
  | accepted {op : HostOp} {a : Addr} {n : Nat} {p : Option (List Byte)} {t : State}
      (hpayload : op = .programPage → p ≠ none) (h : accept op a n p s = .next t) : Transition s t
  /-- The next event of the current frame is its Select (R33). -/
  | selected {c : Current} (hpin : s.resetPin = false) (hrun : s.blk.phase = .run) (hc : s.blk.current = .ok c)
      (hfstep : s.blk.fstep = some .sel) : Transition s (select s)
  /-- Its Transmit (R34). -/
  | transmitted {c : Current} (hpin : s.resetPin = false) (hrun : s.blk.phase = .run)
      (hc : s.blk.current = .ok c) (hfstep : s.blk.fstep = some .tx) : Transition s (transmit c.mop.tx c.mop.rx s)
  /-- Its Receive (R35). -/
  | received {c : Current} {n : Nat} (hpin : s.resetPin = false) (hrun : s.blk.phase = .run)
      (hc : s.blk.current = .ok c) (hfstep : s.blk.fstep = some .rx) (hrx : c.mop.rx = some n) :
      Transition s (receive n s)
  /-- Its Deselect, with what follows it (R33, R150). -/
  | ended {c : Current} {t : State} (hpin : s.resetPin = false) (hrun : s.blk.phase = .run)
      (hc : s.blk.current = .ok c) (hfstep : s.blk.fstep = some .desel) (hend : FrameEnd s c t) : Transition s t

/-- The fetched instruction is that of the current micro-operation's frame (R90, R160). -/
theorem encode_of_fetch {b : Block} {i : Instr} (h : b.fetch = .ok i) :
    ∃ c, b.current = .ok c ∧ encode i = .frame c.mop.tx c.mop.rx := by
  obtain ⟨c, hc, hdecode⟩ := fetch_ok h
  exact ⟨c, hc, encode_of_decodeFrame hdecode⟩

/-- The next event of the current frame is one of the four (R134, R150). -/
theorem transition_of_frameEvent {s t : State} {c : Current} (hpin : s.resetPin = false)
    (hc : s.blk.current = .ok c) (h : frameEvent c.mop.tx c.mop.rx s = .next t) : Transition s t := by
  obtain ⟨hrun, ⟨hsel, rfl⟩ | ⟨htx, rfl⟩ | ⟨n, hfstep, hrx, rfl⟩ | ⟨hdesel, hend⟩⟩ := frameEvent_cases h
  · exact .selected hpin hrun hc hsel
  · exact .transmitted hpin hrun hc htx
  · exact .received hpin hrun hc hfstep hrx
  · exact .ended hpin hrun hc hdesel (frameEnd_of_endFrame hc hend)

/-- An IDLE block executes no instruction but the acceptance of a command (R36). -/
theorem transition_of_exec_idle {i : Instr} {s t : State} (hidle : s.blk.phase = .idle)
    (h : exec i s = .next t) : Transition s t := by
  cases hencode : encode i with
  | frame tx rx => rw [exec_of_frame hencode, frameEvent_idle hidle] at h; cases h
  | command cmd =>
    obtain ⟨op, a, n, p, hexec, hpayload⟩ := exec_of_command hencode s
    exact .accepted hpayload (hexec.symm.trans h)

/-- All a step can do when it answers a next state. -/
theorem transition_of_step {s t : State} (h : step s = .next t) : Transition s t := by
  obtain ⟨hpin, rfl⟩ | ⟨-, hidle, -, rfl⟩ | ⟨-, hidle, cmd, rest, -, -, rfl⟩ |
    ⟨-, hidle, cmd, rest, i, -, -, hexec⟩ | ⟨hpin, -, i, hfetch, hexec⟩ := step_cases h
  · exact .reset hpin
  · exact .rest hidle
  · exact .illegal hidle cmd
  · exact transition_of_exec_idle hidle hexec
  · obtain ⟨c, hc, hencode⟩ := encode_of_fetch hfetch
    rw [exec_of_frame hencode] at hexec
    exact transition_of_frameEvent hpin hc hexec

/-! What the end of a frame leaves, whatever it decides. -/

theorem advance_ports (c : Current) (s : State) : SamePorts s (advance c s) :=
  ⟨advance_host c s, advance_resetPin c s, advance_cfg c s⟩

theorem samePorts_trans {s t u : State} (h : SamePorts s t) (h' : SamePorts t u) : SamePorts s u :=
  ⟨h'.1.trans h.1, h'.2.1.trans h.2.1, h'.2.2.trans h.2.2⟩

/-- After its Deselect the operation has ended, or the block is about to open its next frame (R150). -/
def BetweenFrames (b : Block) : Prop := b.phase = .idle ∨ (b.phase = .run ∧ b.fstep = some .sel)

theorem advance_between {c : Current} {s : State} (hrun : s.blk.phase = .run) : BetweenFrames (advance c s).blk := by
  by_cases h : c.upc + 1 = c.size
  · rw [advance_last h]; exact .inl rfl
  · rw [advance_more h]; exact .inr ⟨hrun, rfl⟩

theorem FrameEnd.between {s t : State} {c : Current} (h : FrameEnd s c t) (hrun : s.blk.phase = .run) :
    BetweenFrames t.blk := by
  cases h with
  | abort => exact .inl rfl
  | advanced hpend hclosed => exact advance_between (hclosed.phase.trans hrun)
  | limit => exact .inl rfl
  | pollAgain hpend hm hlimit hclosed hpolls hsel => exact .inr ⟨hclosed.phase.trans hrun, hsel⟩

theorem FrameEnd.ports {s t : State} {c : Current} (h : FrameEnd s c t) : SamePorts s t := by
  cases h with
  | abort hpend hclosed => exact hclosed.ports
  | advanced hpend hclosed => exact samePorts_trans hclosed.ports (advance_ports c _)
  | limit hpend hm hlimit hclosed => exact hclosed.ports
  | pollAgain hpend hm hlimit hclosed => exact hclosed.ports

/-- A step changes no parameter, and takes a command from the host only while IDLE. -/
theorem Transition.ports {s t : State} (h : Transition s t) :
    t.cfg = s.cfg ∧ (t.host = s.host ∨ (s.blk.phase = .idle ∧ t.host = s.host.tail)) := by
  cases h with
  | reset | rest => exact ⟨rfl, .inl rfl⟩
  | illegal hidle cmd => exact ⟨rfl, .inr ⟨hidle, rfl⟩⟩
  | accepted hpayload h => obtain ⟨hidle, rfl⟩ := accept_next h; exact ⟨rfl, .inr ⟨hidle, rfl⟩⟩
  | selected | transmitted | received => exact ⟨rfl, .inl rfl⟩
  | ended hpin hrun hc hfstep hend => exact ⟨hend.ports.2.2, .inl hend.ports.1⟩

end Sys2Proof.Machine

open Sys2Proof Sys2Proof.Machine Sys2Proof.Claims

/-- Settles O46: acceptance and the answer to an illegal command take the first command, and no other transition touches the host's list. -/
theorem parametersAreFixed : Obligations.ParametersAreFixed := by
  intro s t hstep
  obtain ⟨hcfg, hhost⟩ := (transition_of_step hstep).ports
  exact ⟨hcfg, hhost.imp_right And.right⟩

/-- Settles O17: acceptance looks at the phase first, and a running block's step takes no command. -/
theorem noCommandWhileRunning : Obligations.NoCommandWhileRunning := by
  intro s hrun
  constructor
  · intro i hi
    obtain ⟨op, hop⟩ := Option.ne_none_iff_exists'.mp hi
    obtain ⟨a, n, p, hexec⟩ := exec_eq_accept hop
    rw [hexec, accept, hrun]
  · intro t hstep
    obtain ⟨-, hhost | ⟨hidle, -⟩⟩ := (transition_of_step hstep).ports
    · exact hhost
    · rw [hrun] at hidle; cases hidle
end

section
/-! What the end of a frame adds to the trace and where it leaves the micro-program: one response for each command (R30), upc (R24), the status (R250, R253). -/

namespace Sys2Proof.Machine

open Sys2Proof.Claims

@[simp] theorem cmdCount_append (l l' : List Event) : cmdCount (l ++ l') = cmdCount l + cmdCount l' := by
  induction l with
  | nil => simp [cmdCount]
  | cons e l ih => cases e <;> simp [cmdCount, ih]; omega

@[simp] theorem respCount_append (l l' : List Event) : respCount (l ++ l') = respCount l + respCount l' := by
  induction l with
  | nil => simp [respCount]
  | cons e l ih => cases e <;> simp [respCount, ih]; omega

/-- One response for each accepted command, or owed by the running operation (R30). -/
def State.Balanced (s : State) : Prop := cmdCount s.trace = respCount s.trace + s.blk.phase.owed

theorem balanced_finish {s : State} (hrun : s.blk.phase = .run) (h : s.Balanced) (o : OpOutcome) :
    (finish o s).Balanced := by
  simpa [State.Balanced, hrun, cmdCount, respCount, Phase.owed] using h

theorem balanced_advance {c : Current} {s : State} (hrun : s.blk.phase = .run) (h : s.Balanced) :
    (advance c s).Balanced := by
  by_cases hlast : c.upc + 1 = c.size
  · rw [advance_last hlast]; exact balanced_finish hrun h .ok
  · rw [advance_more hlast]; exact h

theorem Closed.balanced {s s' : State} (hclosed : Closed s s') (h : s.Balanced) : s'.Balanced := by
  simpa [State.Balanced, hclosed.trace, hclosed.phase, cmdCount, respCount] using h

theorem FrameEnd.balanced {s t : State} {c : Current} (hend : FrameEnd s c t) (hrun : s.blk.phase = .run)
    (h : s.Balanced) : t.Balanced := by
  cases hend with
  | abort hpend hclosed => exact balanced_finish (hclosed.phase.trans hrun) (hclosed.balanced h) _
  | advanced hpend hclosed => exact balanced_advance (hclosed.phase.trans hrun) (hclosed.balanced h)
  | limit hpend hm hlimit hclosed => exact balanced_finish (hclosed.phase.trans hrun) (hclosed.balanced h) _
  | pollAgain hpend hm hlimit hclosed => exact hclosed.balanced h

theorem Transition.balanced {s t : State} (htrans : Transition s t) (hpin : s.resetPin = false) (h : s.Balanced) :
    t.Balanced := by
  cases htrans with
  | reset hreset => rw [hpin] at hreset; cases hreset
  | rest => exact h
  | illegal hidle cmd => simpa [State.Balanced, hidle, cmdCount, respCount, Phase.owed] using h
  | accepted hpayload haccept =>
    obtain ⟨hidle, rfl⟩ := accept_next haccept
    simpa [State.Balanced, hidle, acceptBlock, cmdCount, respCount, Phase.owed] using h
  | selected | transmitted | received => simpa [State.Balanced, cmdCount, respCount] using h
  | ended _ hrun hc hfstep hend => exact hend.balanced hrun h

/-- The end of a frame leaves upc or adds 1 (R24). -/
theorem FrameEnd.upc {s t : State} {c : Current} (hend : FrameEnd s c t) (hc : s.blk.current = .ok c) :
    t.blk.upc = some c.upc ∨ t.blk.upc = some (c.upc + 1) := by
  obtain ⟨-, -, hupc, -⟩ := current_ok hc
  cases hend with
  | abort hpend hclosed => exact .inl (hclosed.upc.trans hupc)
  | advanced hpend hclosed => exact .inr (by unfold advance; split <;> rfl)
  | limit hpend hm hlimit hclosed => exact .inl (hclosed.upc.trans hupc)
  | pollAgain hpend hm hlimit hclosed => exact .inl (hclosed.upc.trans hupc)

/-- Of the ways a frame can end without a pending abort, only the advance past the last micro-operation delivers OK (R24, R250). -/
theorem FrameEnd.ok_at_end {s t : State} {c : Current} {r : Response} (hend : FrameEnd s c t)
    (hpend : s.blk.pend = none) (htrace : t.trace = s.trace ++ [.desel, .resp r]) (hr : r.status = .ok) :
    t.blk.upc = some c.size ∧ t.blk.phase = .idle := by
  cases hend with
  | abort habort => rw [hpend] at habort; cases habort
  | advanced _ hclosed =>
    by_cases hlast : c.upc + 1 = c.size
    · rw [advance_last hlast]; exact ⟨congrArg some hlast, rfl⟩
    · simp [advance_more hlast, hclosed.trace] at htrace
  | limit _ hm hlimit hclosed =>
    obtain rfl : _ = r := by simpa [hclosed.trace] using htrace
    rw [responseFor_status] at hr
    cases hr
  | pollAgain _ hm hlimit hclosed => simp [hclosed.trace] at htrace

theorem exists_op_of_current {b : Block} {c : Current} (h : b.current = .ok c) : ∃ op, b.op = some op := by
  obtain ⟨p, hprog, -⟩ := current_ok h
  cases hop : b.op with
  | none => simp [Block.prog, Block.readOp, hop] at hprog
  | some op => exact ⟨op, rfl⟩

/-- A step of an IDLE block, or a block reset, adds no Deselect with a response behind it (R36, R291). -/
theorem run_of_finish_trace {s t : State} {r : Response} (h : Transition s t)
    (htrace : t.trace = s.trace ++ [.desel, .resp r]) :
    s.resetPin = false ∧ s.blk.phase = .run ∧ ∃ c, s.blk.current = .ok c := by
  cases h with
  | reset => unfold blockReset at htrace; split at htrace <;> simp at htrace
  | rest | illegal => simp at htrace
  | accepted hpayload haccept => obtain ⟨-, rfl⟩ := accept_next haccept; simp at htrace
  | selected hpin hrun hc | transmitted hpin hrun hc | received hpin hrun hc | ended hpin hrun hc =>
    exact ⟨hpin, hrun, _, hc⟩

end Sys2Proof.Machine

open Sys2Proof Sys2Proof.Machine Sys2Proof.Claims

/-- Settles O41: acceptance opens a debt of one response, and Finish alone pays it. -/
theorem oneResponsePerCommand : Obligations.OneResponsePerCommand :=
  fun _ _ hpin hstep hbalanced => (transition_of_step hstep).balanced hpin hbalanced

/-- Settles O43: only the end of a frame writes upc, and it adds 1 where it advances. -/
theorem upcNeverGoesBack : Obligations.UpcNeverGoesBack := by
  intro s t c hpin hrun hc hstep
  obtain ⟨-, -, hupc, -⟩ := current_ok hc
  cases transition_of_step hstep with
  | reset hreset => rw [hpin] at hreset; cases hreset
  | rest hidle | illegal hidle => rw [hrun] at hidle; cases hidle
  | accepted hpayload haccept => obtain ⟨hidle, -⟩ := accept_next haccept; rw [hrun] at hidle; cases hidle
  | selected => exact ⟨.inl hupc, by simp⟩
  | transmitted | received => exact ⟨.inl (by simpa using hupc), by simp⟩
  | ended _ _ hc' hfstep hend =>
    obtain rfl := Except.ok.inj (hc.symm.trans hc')
    exact ⟨hend.upc hc, fun r htrace hr hpend => hend.ok_at_end hpend htrace hr⟩

/-- Settles O44: a response a step adds answers an illegal command, or ends an operation with a status of O45. -/
theorem noIndeterminateResponse : Obligations.NoIndeterminateResponse := by
  intro s t hinv hstep r hmem
  obtain ⟨new, htrace, hemits⟩ := step_emits hstep
  rw [htrace, List.mem_append] at hmem
  refine hmem.imp_right fun hnew => ?_
  cases hemits with
  | nothing | command | select | transmit | receive | deselect => simp at hnew
  | illegal =>
    obtain rfl : r = illegalResponse := by simpa using hnew
    simp [illegalResponse]
  | finish =>
    obtain rfl : r = _ := by simpa using hnew
    obtain ⟨hpin, hrun, c, hc⟩ := run_of_finish_trace (transition_of_step hstep) htrace
    obtain ⟨op, hop⟩ := exists_op_of_current hc
    obtain h | h | ⟨h, -⟩ := responseStatusOfEachOperation s t op r hinv hpin hrun hop hstep htrace <;> simp [h]
end

section
/-! Every step keeps the invariant (R24, R25, R26, R35, R145): the block at each sub-step, and the device array. -/

namespace Sys2Proof.Machine

open Sys2Proof.Claims

theorem inv_of_idle {cfg : Cfg} {b : Block} (hidle : b.phase = .idle) (hcs : b.cs = false) : b.Inv cfg := by
  rw [Block.Inv, hidle]
  exact hcs

theorem inv_of_run {cfg : Cfg} {b : Block} {c : Current} {st : FStep} (hrun : b.phase = .run)
    (hc : b.current = .ok c) (hst : b.fstep = some st) (h : RunInv cfg b c st) : b.Inv cfg := by
  rw [Block.Inv, hrun]
  exact ⟨c, st, hc, hst, h⟩

theorem Block.Inv.cs_of_idle {cfg : Cfg} {b : Block} (h : b.Inv cfg) (hidle : b.phase = .idle) : b.cs = false := by
  rwa [Block.Inv, hidle] at h

theorem Block.Inv.exists_runInv {cfg : Cfg} {b : Block} (h : b.Inv cfg) (hrun : b.phase = .run) :
    ∃ c st, b.current = .ok c ∧ b.fstep = some st ∧ RunInv cfg b c st := by
  rwa [Block.Inv, hrun] at h

theorem Block.Inv.runInv {cfg : Cfg} {b : Block} {c : Current} {st : FStep} (h : b.Inv cfg) (hrun : b.phase = .run)
    (hc : b.current = .ok c) (hst : b.fstep = some st) : RunInv cfg b c st := by
  obtain ⟨c', st', hc', hst', hframe⟩ := h.exists_runInv hrun
  obtain rfl := Except.ok.inj (hc.symm.trans hc')
  obtain rfl := Option.some.inj (hst.symm.trans hst')
  exact hframe

/-- Before a frame is opened: no chip select, no pending abort. -/
theorem runInv_sel {cfg : Cfg} {b : Block} {c : Current} (hcs : b.cs = false) (hpend : b.pend = none)
    (hpolls : c.mop ≠ .waitIdle → b.polls = 0) (hlimit : ∀ l, cfg.pollLimit = some l → b.polls < l) :
    RunInv cfg b c .sel where
  cs := by simp [hcs]
  pend := by simp [hpend]
  pendErr := by simp [hpend]
  rx := by simp
  received := by simp
  polls := hpolls
  limit := hlimit

/-- Inside a frame the next sub-step keeps chip select and the polls; what it needs is that an abort waits for the Deselect, and that a successful frame has received its bytes. -/
theorem RunInv.inside {cfg : Cfg} {b b' : Block} {c : Current} {st st' : FStep} (h : RunInv cfg b c st)
    (hcs : b'.cs = true) (hst : st' ≠ .sel) (hpolls : b'.polls = b.polls)
    (hpend : b'.pend = none ∨ (st' = .desel ∧ ∃ e, b'.pend = some (.transportError e)))
    (hrx : st' = .rx → c.mop.rx ≠ none)
    (hreceived : st' = .desel → b'.pend = none → ∀ n, c.mop.rx = some n → ∃ bs, b'.rxbuf = some bs ∧ bs.length = n) :
    RunInv cfg b' c st' where
  cs := by simp [hcs, hst]
  pend hne := by
    obtain hnone | ⟨hdesel, -⟩ := hpend
    · exact absurd hnone hne
    · exact hdesel
  pendErr o ho := by
    obtain hnone | ⟨-, e, he⟩ := hpend
    · rw [hnone] at ho; cases ho
    · exact ⟨e, Option.some.inj (ho.symm.trans he)⟩
  rx := hrx
  received n hdesel hnone hn := hreceived hdesel hnone n hn
  polls hm := hpolls.trans (h.polls hm)
  limit l hl := by rw [hpolls]; exact h.limit l hl

theorem RunInv.pend_eq_none {cfg : Cfg} {b : Block} {c : Current} {st : FStep} (h : RunInv cfg b c st)
    (hst : st ≠ .desel) : b.pend = none := by
  by_contra hne
  exact hst (h.pend hne)

theorem runInv_select {s : State} {c : Current} (h : RunInv s.cfg s.blk c .sel) :
    RunInv s.cfg (select s).blk c .tx :=
  h.inside rfl (by simp) rfl (.inl (h.pend_eq_none (by simp))) (by simp) (by simp)

theorem inv_transmit {s : State} {c : Current} (hrun : s.blk.phase = .run) (hc : s.blk.current = .ok c)
    (h : RunInv s.cfg s.blk c .tx) : (transmit c.mop.tx c.mop.rx s).blk.Inv s.cfg := by
  have hcs : s.blk.cs = true := h.cs.mpr (by simp)
  have hpend : s.blk.pend = none := h.pend_eq_none (by simp)
  have hcurrent : (transmit c.mop.tx c.mop.rx s).blk.current = .ok c := by
    rw [← hc]; apply current_congr <;> simp
  cases hres : s.world.txResult with
  | err e =>
    rw [transmit_blk_err hres] at hcurrent ⊢
    exact inv_of_run hrun hcurrent rfl (h.inside hcs (by simp) rfl (.inr ⟨rfl, e, rfl⟩) (by simp) (by simp))
  | ok =>
    rw [transmit_blk_ok hres] at hcurrent ⊢
    cases hrx : c.mop.rx with
    | none =>
      rw [hrx] at hcurrent
      exact inv_of_run hrun hcurrent rfl (h.inside hcs (by simp) rfl (.inl hpend) (by simp) (by simp [hrx]))
    | some n =>
      rw [hrx] at hcurrent
      exact inv_of_run hrun hcurrent rfl (h.inside hcs (by simp) rfl (.inl hpend) (by simp [hrx]) (by simp))

theorem inv_receive {s : State} {c : Current} {n : Nat} (hrun : s.blk.phase = .run) (hc : s.blk.current = .ok c)
    (hn : c.mop.rx = some n) (h : RunInv s.cfg s.blk c .rx) : (receive n s).blk.Inv s.cfg := by
  have hcs : s.blk.cs = true := h.cs.mpr (by simp)
  have hpend : s.blk.pend = none := h.pend_eq_none (by simp)
  have hcurrent : (receive n s).blk.current = .ok c := by
    rw [← hc]; apply current_congr <;> simp
  cases hres : s.world.rxResult s.cfg n with
  | err e =>
    rw [receive_blk_err hres] at hcurrent ⊢
    exact inv_of_run hrun hcurrent rfl (h.inside hcs (by simp) rfl (.inr ⟨rfl, e, rfl⟩) (by simp) (by simp))
  | ok bytes =>
    rw [receive_blk_ok hres] at hcurrent ⊢
    refine inv_of_run hrun hcurrent rfl (h.inside hcs (by simp) rfl (.inl hpend) (by simp) fun _ _ m hm => ?_)
    obtain rfl : n = m := Option.some.inj (hn.symm.trans hm)
    exact ⟨bytes, rfl, rxResult_length hres⟩

/-- POLL_LIMIT, where bounded, is at least 1. -/
theorem pos_of_pollLimit {cfg : Cfg} (h : cfg.wf = true) {l : Nat} (hl : cfg.pollLimit = some l) : 0 < l := by
  simpa [Cfg.wf, hl, Nat.succ_le_iff] using h

/-- Before the last micro-operation there is a next one (R24). -/
theorem exists_current_next {b b' : Block} {c : Current} (hc : b.current = .ok c) (hprog : b'.prog = b.prog)
    (hupc : b'.upc = some (c.upc + 1)) (hmore : c.upc + 1 ≠ c.size) : ∃ c', b'.current = .ok c' := by
  obtain ⟨p, hp, -, hmop, hsize⟩ := current_ok hc
  obtain ⟨hlt, -⟩ := List.getElem?_eq_some_iff.mp hmop
  have hget : p[c.upc + 1]? = some p[c.upc + 1] := List.getElem?_eq_getElem (by omega)
  exact ⟨_, by simp only [Block.current, hprog, hp, Block.readUpc, hupc, hget]; rfl⟩

theorem inv_advance {s : State} {c : Current} (hcfg : s.cfg.wf = true) (hrun : s.blk.phase = .run)
    (hc : s.blk.current = .ok c) (hcs : s.blk.cs = false) (hpend : s.blk.pend = none) :
    (advance c s).blk.Inv s.cfg := by
  by_cases hlast : c.upc + 1 = c.size
  · rw [advance_last hlast]
    exact inv_of_idle rfl hcs
  · rw [advance_more hlast]
    obtain ⟨c', hc'⟩ := exists_current_next
      (b' := { s.blk with upc := some (c.upc + 1), polls := 0, fstep := some .sel }) hc
      (prog_congr rfl rfl rfl rfl) rfl hlast
    exact inv_of_run hrun hc' rfl
      (runInv_sel hcs hpend (fun _ => rfl) fun l hl => pos_of_pollLimit hcfg hl)

theorem Closed.current_eq {s s' : State} (h : Closed s s') : s'.blk.current = s.blk.current := by
  obtain ⟨hop, haddr, hlen, hpayload⟩ := h.operands
  exact current_congr hop haddr hlen hpayload h.upc

/-- POLL_LIMIT is not reached while it is unbounded or greater than the polls (R145). -/
theorem limitReached_eq_none_iff {cfg : Cfg} {k : Nat} :
    limitReached cfg k = none ↔ ∀ l, cfg.pollLimit = some l → k < l := by
  cases hl : cfg.pollLimit <;> simp [limitReached, hl]

theorem FrameEnd.inv {s t : State} {c : Current} (hend : FrameEnd s c t) (hcfg : s.cfg.wf = true)
    (hrun : s.blk.phase = .run) (hc : s.blk.current = .ok c) : t.blk.Inv s.cfg := by
  cases hend with
  | abort hpend hclosed => exact inv_of_idle rfl hclosed.cs
  | advanced hpend hclosed =>
    have hs := hclosed.ports.2.2
    rw [← hs] at hcfg ⊢
    exact inv_advance hcfg (hclosed.phase.trans hrun) (hclosed.current_eq.trans hc) hclosed.cs
      (hclosed.pend.trans hpend)
  | limit hpend hm hlimit hclosed => exact inv_of_idle rfl hclosed.cs
  | pollAgain hpend hm hlimit hclosed hpolls hsel =>
    refine inv_of_run (hclosed.phase.trans hrun) (hclosed.current_eq.trans hc) hsel
      (runInv_sel hclosed.cs (hclosed.pend.trans hpend) (absurd hm) fun l hl => ?_)
    rw [hpolls]
    exact limitReached_eq_none_iff.mp hlimit l hl

theorem payload_eq_some_getD {op : HostOp} {p : Option (List Byte)} (h : op = .programPage → p ≠ none)
    (hop : op = .programPage) : p = some (p.getD []) := by
  obtain ⟨d, rfl⟩ := Option.ne_none_iff_exists'.mp (h hop)
  rfl

/-- An accepted operation stands at the first micro-operation of its program (R23, R140). -/
theorem exists_current_accept {op : HostOp} {p : Option (List Byte)} (hpayload : op = .programPage → p ≠ none)
    (a : Addr) (n : Nat) (b : Block) : ∃ c, (acceptBlock op a n p b).current = .ok c := by
  obtain ⟨m, ms, hprog, -⟩ :=
    operation_performs (b := acceptBlock op a n p b) (d := p.getD []) Cfg.default 0 rfl rfl rfl
      (payload_eq_some_getD hpayload)
  have hupc : (acceptBlock op a n p b).upc = some 0 := rfl
  exact ⟨⟨m, 0, (m :: ms).length⟩, by simp [Block.current, hprog, Block.readUpc, hupc]⟩

theorem Transition.inv {s t : State} (htrans : Transition s t) (hinv : s.Inv) : t.blk.Inv s.cfg := by
  have hblk := hinv.blk
  cases htrans with
  | reset => exact inv_of_idle rfl rfl
  | rest | illegal => exact hblk
  | accepted hpayload haccept =>
    obtain ⟨hidle, rfl⟩ := accept_next haccept
    obtain ⟨c, hc⟩ := exists_current_accept hpayload _ _ s.blk
    exact inv_of_run rfl hc rfl
      (runInv_sel (hblk.cs_of_idle hidle) rfl (fun _ => rfl) fun l hl => pos_of_pollLimit hinv.cfg hl)
  | selected _ hrun hc hfstep => exact inv_of_run hrun hc rfl (runInv_select (hblk.runInv hrun hc hfstep))
  | transmitted _ hrun hc hfstep => exact inv_transmit hrun hc (hblk.runInv hrun hc hfstep)
  | received _ hrun hc hfstep hrx => exact inv_receive hrun hc hrx (hblk.runInv hrun hc hfstep)
  | ended _ hrun hc _ hend => exact hend.inv hinv.cfg hrun hc

/-- Every move of the environment keeps the canonical form of the array (log entry 13). -/
theorem World.Move.array_wf {cfg : Cfg} {w w' : World} (h : w.Move cfg w') (hw : w.dev.array.wf = true) :
    w'.dev.array.wf = true := by
  cases h with
  | stay => exact hw
  | select => exact wf_select hw cfg
  | transmit tx => exact hw
  | receive => exact hw
  | deselect => exact wf_world_frameEnd hw w.wire
  | cutShort => exact wf_cutShort hw

/-! The step of an IDLE block that is presented a command (10_state.md section 3). -/

section
variable {s : State} {cmd : Command} {rest : List Command} (hpin : s.resetPin = false) (hidle : s.blk.phase = .idle)
  (hhost : s.host = cmd :: rest)
include hpin hidle hhost

theorem step_of_instr {i : Instr} (h : offerOf s.cfg cmd = .instr i) : step s = exec i s := by
  simp [step, hpin, hidle, hhost, h]

theorem step_of_illegal (h : offerOf s.cfg cmd = .illegal) : step s = .next (illegalCommand cmd s) := by
  simp [step, hpin, hidle, hhost, h]

theorem step_of_unpresentable {r : Refusal} (h : offerOf s.cfg cmd = .unpresentable r) : step s = .refused r := by
  simp [step, hpin, hidle, hhost, h]

end

/-! No step faults: what each sub-step reads is there. -/

/-- The frame's parts of the current micro-operation are sound (R140). -/
theorem sound_of_current {b : Block} {c : Current} (h : b.current = .ok c) : c.mop.Sound := by
  obtain ⟨p, hprog, -, hmop, -⟩ := current_ok h
  exact List.forall_iff_forall_mem.mp (prog_keepsGuard hprog).sound _ (List.mem_of_getElem? hmop)

/-- The end of a frame finds the byte of a poll, or the bytes its destination takes (R35, R137, R143). -/
theorem endFrame_answers {s : State} {c : Current} (hc : s.blk.current = .ok c)
    (h : RunInv s.cfg s.blk c .desel) : ∃ t, endFrame s = .next t := by
  cases hpend : s.blk.pend with
  | some o => exact ⟨finish o (deselect s), by simp only [endFrame, hpend]⟩
  | none =>
    cases hm : c.mop with
    | waitIdle =>
      obtain ⟨bytes, hbuf, hone⟩ := h.received 1 rfl hpend (by rw [hm]; rfl)
      exact ⟨_, endFrame_poll hpend hc hm hbuf hone⟩
    | frame tx rx dst =>
      have hsound := sound_of_current hc
      rw [hm] at hsound
      have hreceived : ∀ n, rx = some n →
          (deselect s).blk.rxbuf = some (s.blk.rxbuf.getD []) ∧ (s.blk.rxbuf.getD []).length = n := by
        intro n hn
        obtain ⟨bytes, hbuf, hlen⟩ := h.received n rfl hpend (by rw [hm]; exact hn)
        simp [hbuf, hlen]
      exact ⟨_, by simp only [endFrame, hpend, hc, hm, store_eq_record hsound.2 hreceived]; rfl⟩

/-- At every sub-step the frame has a next event (R150). -/
theorem frameEvent_answers {s : State} {c : Current} {st : FStep} (hrun : s.blk.phase = .run)
    (hc : s.blk.current = .ok c) (hst : s.blk.fstep = some st) (h : RunInv s.cfg s.blk c st) :
    ∃ t, frameEvent c.mop.tx c.mop.rx s = .next t := by
  cases st with
  | sel => exact ⟨_, frameEvent_sel hrun hst⟩
  | tx => exact ⟨_, frameEvent_tx hrun hst⟩
  | rx =>
    obtain ⟨n, hn⟩ := Option.ne_none_iff_exists'.mp (h.rx rfl)
    rw [hn]
    exact ⟨_, frameEvent_rx hrun hst⟩
  | desel => rw [frameEvent_desel hrun hst]; exact endFrame_answers hc h

/-- An IDLE block executes every decoded command (R23). -/
theorem exec_answers_of_decodeCommand {cfg : Cfg} {cmd : Command} {i : Instr} {s : State}
    (h : decodeCommand cfg cmd = .ok i) (hidle : s.blk.phase = .idle) : ∃ t, exec i s = .next t := by
  obtain ⟨-, -, op, -, htakes, rfl⟩ := decodeCommand_ok h
  obtain ⟨op', a, n, p, hexec, -⟩ := exec_of_command (encode_instr htakes (addrField cmd.word)) s
  exact ⟨_, hexec.trans (accept_idle hidle op' a n p)⟩

end Sys2Proof.Machine

open Sys2Proof Sys2Proof.Machine

/-- Settles O37: each transition keeps the block's invariant, each move of the environment the array's form, and the parameters stay. -/
theorem stepKeepsTheInvariant : Obligations.StepKeepsTheInvariant := by
  intro s t hinv hstep
  have htrans := transition_of_step hstep
  obtain ⟨hcfg, -⟩ := htrans.ports
  exact ⟨hcfg ▸ hinv.cfg, (step_move hstep).array_wf hinv.array, hcfg ▸ htrans.inv hinv⟩

/-- Settles O38: at every sub-step the fields the block reads hold values, and an IDLE block answers or accepts what can be presented. -/
theorem stepNeverFaults : Obligations.StepNeverFaults := by
  intro s hinv
  cases hpin : s.resetPin with
  | true => exact .inl ⟨_, by rw [step, if_pos hpin]⟩
  | false =>
    cases hphase : s.blk.phase with
    | run =>
      obtain ⟨c, st, hc, hst, hframe⟩ := hinv.blk.exists_runInv hphase
      obtain ⟨i, hi⟩ := exists_encode_of_current hc
      rw [step_eq_frameEvent hpin hphase hc hi]
      exact .inl (frameEvent_answers hphase hc hst hframe)
    | idle =>
      cases hhost : s.host with
      | nil => exact .inl ⟨s, idleDrivesNoEvent s hpin hphase hhost⟩
      | cons cmd rest =>
        cases hoffer : offerOf s.cfg cmd with
        | instr i =>
          rw [step_of_instr hpin hphase hhost hoffer]
          exact .inl (exec_answers_of_decodeCommand (offerOf_instr hoffer) hphase)
        | illegal => exact .inl ⟨_, step_of_illegal hpin hphase hhost hoffer⟩
        | unpresentable r =>
          exact .inr ⟨rfl, cmd, rest, r, rfl, hoffer, step_of_unpresentable hpin hphase hhost hoffer⟩
end

section
/-! Every step keeps the trace framed (R25, R71, R90, R139): where it leaves off follows the block's sub-step. -/

namespace Sys2Proof.Machine

theorem windowFrom_append (l l' : List Event) : ∀ w : Window,
    windowFrom w (l ++ l') = (windowFrom w l).bind fun w' => windowFrom w' l' := by
  induction l with
  | nil => exact fun w => rfl
  | cons e l ih =>
    intro w
    cases hnext : w.next e with
    | none => simp [windowFrom, hnext]
    | some w' => simpa [windowFrom, hnext] using ih w'

/-- Events added where a framed trace leaves off. -/
theorem windowFrom_append_of {trace : List Event} {w : Window} (h : windowFrom .out trace = some w)
    (new : List Event) : windowFrom .out (trace ++ new) = windowFrom w new := by
  rw [windowFrom_append, h, Option.bind_some]

/-- Where the trace of a running block leaves off at a sub-step. -/
def LeavesOff (trace : List Event) : FStep → Prop
  | .sel => windowFrom .out trace = some .out
  | .tx => windowFrom .out trace = some .opened
  | .rx => windowFrom .out trace = some .sent
  | .desel => windowFrom .out trace = some .sent ∨ windowFrom .out trace = some .received

theorem framed_iff_of_fstep {s : State} {st : FStep} (hrun : s.blk.phase = .run) (hst : s.blk.fstep = some st) :
    s.Framed ↔ LeavesOff s.trace st := by
  cases st <;> simp [State.Framed, LeavesOff, hrun, hst]

theorem framed_iff_of_idle {s : State} (hidle : s.blk.phase = .idle) :
    s.Framed ↔ windowFrom .out s.trace = some .out := by
  simp [State.Framed, hidle]

/-- Between frames the trace is framed if it leaves off outside a window. -/
theorem framed_of_between {s : State} (hblk : BetweenFrames s.blk) (h : windowFrom .out s.trace = some .out) :
    s.Framed := by
  obtain hidle | ⟨hrun, hsel⟩ := hblk
  · exact (framed_iff_of_idle hidle).mpr h
  · exact (framed_iff_of_fstep hrun hsel).mpr h

/-- A Deselect closes a window at every sub-step that has one open, and a response may follow it (R71, R291). -/
theorem window_closed {trace : List Event} {st : FStep} (h : LeavesOff trace st) (hst : st ≠ .sel) :
    windowFrom .out (trace ++ [.desel]) = some .out ∧
    ∀ r, windowFrom .out (trace ++ [.desel, .resp r]) = some .out := by
  cases st with
  | sel => exact absurd rfl hst
  | tx | rx => exact ⟨windowFrom_append_of h _, fun r => windowFrom_append_of h _⟩
  | desel =>
    obtain h | h := h <;> exact ⟨windowFrom_append_of h _, fun r => windowFrom_append_of h _⟩

theorem FrameEnd.trace_cases {s t : State} {c : Current} (hend : FrameEnd s c t) :
    t.trace = s.trace ++ [.desel] ∨ ∃ r, t.trace = s.trace ++ [.desel, .resp r] := by
  cases hend with
  | abort _ hclosed | limit _ _ _ hclosed => exact .inr ⟨_, by rw [finish_trace, hclosed.trace, List.append_assoc]; rfl⟩
  | @advanced s' _ hclosed => simpa [hclosed.trace] using advance_trace_cases c s'
  | pollAgain _ _ _ hclosed => exact .inl hclosed.trace

/-- A block reset closes the window that is open, if one is (R25, R291). -/
theorem framed_blockReset {s : State} (hinv : s.blk.Inv s.cfg) (hframed : s.Framed) : (blockReset s).Framed := by
  refine (framed_iff_of_idle rfl).mpr ?_
  cases hphase : s.blk.phase with
  | idle =>
    have hcs := hinv.cs_of_idle hphase
    simpa [blockReset, hcs] using (framed_iff_of_idle hphase).mp hframed
  | run =>
    obtain ⟨c, st, -, hst, hframe⟩ := hinv.exists_runInv hphase
    have hoff := (framed_iff_of_fstep hphase hst).mp hframed
    by_cases hsel : st = .sel
    · have hcs : s.blk.cs = false := by simpa [hsel] using hframe.cs
      rw [hsel] at hoff
      simpa [blockReset, hcs, LeavesOff] using hoff
    · have hcs : s.blk.cs = true := hframe.cs.mpr hsel
      simpa [blockReset, hcs] using (window_closed hoff hsel).1

section
variable {s : State} (hrun : s.blk.phase = .run) (hframed : s.Framed)
include hrun hframed

theorem framed_select (hfstep : s.blk.fstep = some .sel) : (select s).Framed := by
  have hoff : windowFrom .out s.trace = some .out := (framed_iff_of_fstep hrun hfstep).mp hframed
  have hopened : windowFrom .out (select s).trace = some .opened := windowFrom_append_of hoff _
  exact (framed_iff_of_fstep (s := select s) (st := .tx) hrun rfl).mpr hopened

theorem framed_transmit (hfstep : s.blk.fstep = some .tx) (tx : List Byte) (rx : Option Nat) :
    (transmit tx rx s).Framed := by
  have hoff : windowFrom .out s.trace = some .opened := (framed_iff_of_fstep hrun hfstep).mp hframed
  have hsent : windowFrom .out (transmit tx rx s).trace = some .sent := windowFrom_append_of hoff _
  have hrun' : (transmit tx rx s).blk.phase = .run := by simpa using hrun
  have hnext : (transmit tx rx s).blk.fstep = some .rx ∨ (transmit tx rx s).blk.fstep = some .desel := by
    cases hres : s.world.txResult with
    | err e => rw [transmit_blk_err hres]; exact .inr rfl
    | ok => rw [transmit_blk_ok hres]; cases rx <;> simp
  obtain hst | hst := hnext
  · exact (framed_iff_of_fstep hrun' hst).mpr hsent
  · exact (framed_iff_of_fstep hrun' hst).mpr (.inl hsent)

theorem framed_receive (hfstep : s.blk.fstep = some .rx) (n : Nat) : (receive n s).Framed := by
  have hoff : windowFrom .out s.trace = some .sent := (framed_iff_of_fstep hrun hfstep).mp hframed
  have hreceived : windowFrom .out (receive n s).trace = some .received := windowFrom_append_of hoff _
  have hst : (receive n s).blk.fstep = some .desel := by
    cases hres : s.world.rxResult s.cfg n with
    | err e => rw [receive_blk_err hres]
    | ok bytes => rw [receive_blk_ok hres]
  exact (framed_iff_of_fstep (by simpa using hrun) hst).mpr (.inr hreceived)

theorem FrameEnd.framed {t : State} {c : Current} (hend : FrameEnd s c t) (hfstep : s.blk.fstep = some .desel) :
    t.Framed := by
  obtain ⟨hdesel, hresp⟩ := window_closed ((framed_iff_of_fstep hrun hfstep).mp hframed) (by simp)
  refine framed_of_between (hend.between hrun) ?_
  obtain htrace | ⟨r, htrace⟩ := hend.trace_cases <;> rw [htrace]
  · exact hdesel
  · exact hresp r

end

end Sys2Proof.Machine

open Sys2Proof Sys2Proof.Machine

/-- Settles O39: each event may stand where its sub-step says the trace leaves off, and leaves it where the next sub-step says. -/
theorem stepKeepsTheTraceFramed : Obligations.StepKeepsTheTraceFramed := by
  intro s t hinv hframed hstep
  cases transition_of_step hstep with
  | reset => exact framed_blockReset hinv.blk hframed
  | rest => exact hframed
  | illegal hidle cmd =>
    exact (framed_iff_of_idle (s := illegalCommand cmd s) hidle).mpr
      (windowFrom_append_of ((framed_iff_of_idle hidle).mp hframed) _)
  | accepted hpayload haccept =>
    obtain ⟨hidle, rfl⟩ := accept_next haccept
    exact framed_of_between (.inr ⟨rfl, rfl⟩) (windowFrom_append_of ((framed_iff_of_idle hidle).mp hframed) _)
  | selected _ hrun _ hfstep => exact framed_select hrun hframed hfstep
  | transmitted _ hrun _ hfstep => exact framed_transmit hrun hframed hfstep _ _
  | received _ hrun _ hfstep => exact framed_receive hrun hframed hfstep _
  | ended _ hrun _ hfstep hend => exact hend.framed hrun hframed hfstep

/-- Settles O36: the block of reset is IDLE with chip select deasserted, its trace is empty, and the device array is one fill. -/
theorem resetMeetsTheInvariant : Obligations.ResetMeetsTheInvariant := by
  have hidle : State.reset.blk.phase = .idle := rfl
  exact ⟨⟨rfl, wf_fillAll _, inv_of_idle hidle rfl⟩, (framed_iff_of_idle hidle).mpr rfl,
    (guarded_iff_of_idle hidle).mpr rfl⟩
end

section
/-! What the first presented command or the current frame makes of a step, and a block reset. -/

namespace Sys2Proof.Machine

theorem offerOf_of_ok {cfg : Cfg} {cmd : Command} {i : Instr} (h : decodeCommand cfg cmd = .ok i) :
    offerOf cfg cmd = .instr i := by
  simp [offerOf, h]

theorem lenFits_iff {cfg : Cfg} {n : Nat} : lenFits cfg n = true ↔ n < 2 ^ cfg.lenBits := by
  simp [lenFits]

/-- A word with RSV not 0, or with a CMD that selects no operation, is illegal (R100). -/
theorem offerOf_illegal {cfg : Cfg} {cmd : Command} (hlen : lenFits cfg cmd.len = true)
    (h : rsvField cmd.word ≠ 0 ∨ opOfCmd (cmdField cmd.word) = none) : offerOf cfg cmd = .illegal := by
  by_cases hrsv : rsvField cmd.word = 0
  · simp [offerOf, decodeCommand_reservedCmd hlen hrsv (h.resolve_left (absurd hrsv))]
  · simp [offerOf, decodeCommand_reservedBits hlen hrsv]

theorem offerOf_lenTooWide {cfg : Cfg} {cmd : Command} (hlen : lenFits cfg cmd.len = false) :
    offerOf cfg cmd = .unpresentable .lenTooWide := by
  simp [offerOf, decodeCommand_lenTooWide hlen]

/-- programPage's CMD code is 6 (R99). -/
theorem opOfCmd_eq_programPage {c : BitVec 4} : opOfCmd c = some .programPage ↔ c = 6 := by
  revert c; decide

/-- Codes 0x0 to 0x8 select an operation (R99). -/
theorem exists_opOfCmd {c : BitVec 4} : c.toNat < 9 → ∃ op, opOfCmd c = some op := by
  simp only [← Option.isSome_iff_exists]
  revert c; decide

theorem offerOf_payloadLength {cfg : Cfg} {cmd : Command} (hlen : lenFits cfg cmd.len = true)
    (hrsv : rsvField cmd.word = 0) (hcmd : cmdField cmd.word = 6) (hpayload : cmd.payload.length ≠ cmd.len) :
    offerOf cfg cmd = .unpresentable .payloadLength := by
  have hdecode := decodeCommand_of_op hlen hrsv (opOfCmd_eq_programPage.mpr hcmd)
  rw [if_pos rfl, if_neg hpayload] at hdecode
  simp [offerOf, hdecode]

theorem offerOf_payloadNotTaken {cfg : Cfg} {cmd : Command} (hlen : lenFits cfg cmd.len = true)
    (hrsv : rsvField cmd.word = 0) (hcmd : (cmdField cmd.word).toNat < 9) (hne : cmdField cmd.word ≠ 6)
    (hpayload : cmd.payload ≠ []) : offerOf cfg cmd = .unpresentable .payloadNotTaken := by
  obtain ⟨op, hop⟩ := exists_opOfCmd hcmd
  have hpp : op ≠ .programPage := by
    rintro rfl
    exact hne (opOfCmd_eq_programPage.mp hop)
  have hdecode := decodeCommand_of_op hlen hrsv hop
  rw [if_neg hpp, withoutPayload, if_neg hpayload] at hdecode
  simp [offerOf, hdecode]

@[simp] theorem cutShort_answers (w : World) : w.cutShort.answers = w.answers := by
  unfold World.cutShort World.frameEnd
  split <;> simp

/-- An attached device is left as the end of a frame of those bytes leaves it, no byte included (R79). -/
theorem frameEnd_dev_attached {w : World} (h : w.attached = true) (wire : List Byte) :
    ∃ k, (w.frameEnd wire).dev = w.dev.frameEnd k wire := by
  cases wire with
  | nil => exact ⟨0, by simp [World.frameEnd, Device.frameEnd]⟩
  | cons b bs => exact ⟨w.draw.1, by simp [World.frameEnd, h]⟩

/-- Some first bytes of a frame that is cut short have reached the device (R291, log entry 18). -/
theorem cutShort_dev (w : World) : ∃ j k, w.cutShort.dev = w.dev.frameEnd k (w.wire.take j) := by
  cases hattached : w.attached with
  | false => exact ⟨0, 0, cutShort_dev_oracle hattached⟩
  | true =>
    obtain ⟨k, hframe⟩ := frameEnd_dev_attached (w := w.draw.2) (by simpa using hattached) (w.wire.take w.draw.1)
    rw [draw_dev] at hframe
    exact ⟨w.draw.1, k, hframe⟩

end Sys2Proof.Machine

open Sys2Proof Sys2Proof.Machine

/-- Settles O11: a command that decodes is offered as its instruction. -/
theorem stepRunsThePresentedCommand : Obligations.StepRunsThePresentedCommand :=
  fun _ _ _ _ hpin hidle hhost hdecode => step_of_instr hpin hidle hhost (offerOf_of_ok hdecode)

/-- Settles O12: the frame that decodes to the instruction is its own, so both sides are the frame's next event. -/
theorem stepRunsTheFetchedWireInstruction : Obligations.StepRunsTheFetchedWireInstruction := by
  intro s c i hpin hrun hc hdecode
  have hencode := encode_of_decodeFrame hdecode
  rw [step_eq_frameEvent hpin hrun hc hencode, exec_of_frame hencode]

/-- Settles O13: with a LEN that fits, RSV and CMD alone make the word illegal. -/
theorem illegalWordIsAnswered : Obligations.IllegalWordIsAnswered := by
  intro s cmd rest hpin hidle hhost hlen hillegal
  have hoffer : offerOf s.cfg cmd = .illegal :=
    offerOf_illegal (lenFits_iff.mpr hlen) (hillegal.symm.imp_right opOfCmd_reserved)
  rw [step_of_illegal hpin hidle hhost hoffer, illegalCommand, hhost]
  rfl

/-- Settles O14: the checks in their order, LEN, then RSV and CMD, then the payload. -/
theorem unpresentableCommandIsRefused : Obligations.UnpresentableCommandIsRefused := by
  intro s cmd rest hpin hidle hhost
  have hrefused : ∀ r, offerOf s.cfg cmd = .unpresentable r → step s = .refused r :=
    fun r => step_of_unpresentable hpin hidle hhost
  refine ⟨fun hwide => ?_, fun hlen hrsv => ⟨fun ⟨hcmd, hpayload⟩ => ?_, fun ⟨hcmd, hne, hpayload⟩ => ?_⟩⟩
  · exact hrefused _ (offerOf_lenTooWide (by simpa [lenFits] using hwide))
  · exact hrefused _ (offerOf_payloadLength (lenFits_iff.mpr hlen) hrsv hcmd hpayload)
  · exact hrefused _ (offerOf_payloadNotTaken (lenFits_iff.mpr hlen) hrsv hcmd hne hpayload)

/-- Settles O15: the window is cut short exactly if chip select was asserted, and then some first bytes of it count. -/
theorem blockResetEndsTheOperation : Obligations.BlockResetEndsTheOperation := by
  intro s hpin
  refine ⟨blockReset s, by rw [step, if_pos hpin], rfl, ?_⟩
  cases hcs : s.blk.cs with
  | true =>
    have hworld : (blockReset s).world = s.world.cutShort := by simp [blockReset, hcs]
    rw [hworld]
    exact ⟨by simp [blockReset, hcs], by simp, cutShort_answers _, cutShort_dev _, rfl, rfl, rfl⟩
  | false =>
    have hworld : (blockReset s).world = s.world := by simp [blockReset, hcs]
    rw [hworld]
    exact ⟨by simp [blockReset, hcs], fun _ => rfl, rfl, ⟨0, 0, rfl⟩, rfl, rfl, rfl⟩
end

section
/-! One frame of a wire instruction, event by event (R134, R150): what it sends, where its bytes go, and how it ends. -/

namespace Sys2Proof.Machine

open Sys2Proof.Claims

/-- What no decision at the end of a frame writes: every field of the block but phase, upc, fstep and polls. -/
structure SameData (b b' : Block) : Prop where
  cs : b'.cs = b.cs
  pend : b'.pend = b.pend
  rxbuf : b'.rxbuf = b.rxbuf
  operands : SameOperands b b'
  results : SameResults b b'

theorem sameData_of_control (b : Block) (phase : Phase) (upc : Option Nat) (fstep : Option FStep) (polls : Nat) :
    SameData b { b with phase := phase, upc := upc, fstep := fstep, polls := polls } :=
  ⟨rfl, rfl, rfl, ⟨rfl, rfl, rfl, rfl⟩, ⟨rfl, rfl, rfl, rfl⟩⟩

/-- The block after Advance (R150). -/
theorem advance_blk (c : Current) (s : State) :
    (advance c s).blk = { s.blk with
      phase := if c.upc + 1 = c.size then .idle else s.blk.phase
      upc := some (c.upc + 1), fstep := some .sel, polls := 0 } := by
  by_cases h : c.upc + 1 = c.size
  · rw [advance_last h, if_pos h]; rfl
  · rw [advance_more h, if_neg h]

theorem advance_sameData (c : Current) (s : State) : SameData s.blk (advance c s).blk :=
  advance_blk c s ▸ sameData_of_control s.blk _ _ _ _

/-- Advance delivers the OK response exactly if the operation ends (R150, R250). -/
theorem advance_trace (c : Current) (s : State) : (advance c s).trace = s.trace ++ okEvents c s.blk := by
  by_cases h : c.upc + 1 = c.size
  · rw [advance_last h, okEvents, if_pos h]; rfl
  · rw [advance_more h, okEvents, if_neg h, List.append_nil]

theorem advanced_advance {c : Current} {s : State} (hrun : s.blk.phase = .run) (hcs : s.blk.cs = false) :
    Advanced c (advance c s) := by
  rw [Advanced, advance_blk]
  exact ⟨rfl, rfl, rfl, hcs, by simp [hrun]⟩

/-- The response events depend on the operation and its results alone (R151). -/
theorem okEvents_congr {b b' : Block} (hoperands : SameOperands b b') (hresults : SameResults b b') (c : Current) :
    okEvents c b' = okEvents c b := by
  obtain ⟨hop, -⟩ := hoperands
  obtain ⟨hbstate, hsr1, hsr2, hrdata⟩ := hresults
  simp only [okEvents, okResponse, hop, hbstate, hsr1, hsr2, hrdata]

/-! The four events of a frame whose transfers succeed. -/

section
variable {i : Instr} {s : State} {tx : List Byte} {rx : Option Nat} (hencode : encode i = .frame tx rx)
  (hrun : s.blk.phase = .run)
include hencode hrun

theorem exec_sel (hfstep : s.blk.fstep = some .sel) : exec i s = .next (select s) := by
  rw [exec_of_frame hencode, frameEvent_sel hrun hfstep]

theorem exec_tx (hfstep : s.blk.fstep = some .tx) : exec i s = .next (transmit tx rx s) := by
  rw [exec_of_frame hencode, frameEvent_tx hrun hfstep]

theorem exec_rx {n : Nat} (hn : rx = some n) (hfstep : s.blk.fstep = some .rx) : exec i s = .next (receive n s) := by
  rw [exec_of_frame hencode, hn, frameEvent_rx hrun hfstep]

theorem exec_desel (hfstep : s.blk.fstep = some .desel) : exec i s = endFrame s := by
  rw [exec_of_frame hencode, frameEvent_desel hrun hfstep]

end

/-- The block after the Transmit of a frame without a receive part stands at its Deselect. -/
theorem transmit_select_blk_none {s : State} (h : (s.world.select s.cfg).txResult = .ok) (tx : List Byte) :
    (transmit tx none (select s)).blk = s.blk.received s.blk.rxbuf :=
  transmit_blk_ok h

/-- The block after the Transmit of a frame with a receive part stands at its Receive. -/
theorem transmit_select_blk_some {s : State} (h : (s.world.select s.cfg).txResult = .ok) (tx : List Byte) (n : Nat) :
    (transmit tx (some n) (select s)).blk = { s.blk with cs := true, fstep := some .rx } :=
  transmit_blk_ok h

theorem receive_transmit_blk {s : State} {tx bs : List Byte} {n : Nat} (h : (s.world.select s.cfg).txResult = .ok)
    (hrx : ((s.world.select s.cfg).transmit tx).rxResult s.cfg n = .ok bs) :
    (receive n (transmit tx (some n) (select s))).blk = s.blk.received (some bs) := by
  rw [receive_blk_ok hrx, transmit_select_blk_some h]
  rfl

theorem receive_transmit_trace {s : State} {tx bs : List Byte} {n : Nat} (h : (s.world.select s.cfg).txResult = .ok)
    (hrx : ((s.world.select s.cfg).transmit tx).rxResult s.cfg n = .ok bs) :
    (receive n (transmit tx (some n) (select s))).trace = s.trace ++ [.sel, .tx tx .ok, .rx n (.ok bs)] := by
  simp [h, hrx]

/-- The state after the Deselect of a poll that answers `x`, its decision still to come (R144). -/
def State.afterPoll (x : Byte) (s : State) : State :=
  { s with
    blk := { s.blk.received (some [x]) with cs := false }
    world := ((s.world.select s.cfg).transmit [0x05]).receive.deselect
    trace := s.trace ++ pollEvents x }

theorem deselect_poll {s : State} {x : Byte} (h : (s.world.select s.cfg).txResult = .ok)
    (hrx : ((s.world.select s.cfg).transmit [0x05]).rxResult s.cfg 1 = .ok [x]) :
    deselect (receive 1 (transmit [0x05] (some 1) (select s))) = s.afterPoll x := by
  have htrace := receive_transmit_trace h hrx
  rw [deselect, receive_transmit_blk h hrx, htrace, List.append_assoc]
  rfl

/-- The three events of a frame that receives, up to its Deselect. -/
theorem exec_receive_frame {i : Instr} {s : State} {tx : List Byte} {n : Nat} (hencode : encode i = .frame tx (some n))
    (hrun : s.blk.phase = .run) (hsel : s.blk.fstep = some .sel) (h : (s.world.select s.cfg).txResult = .ok) :
    exec i s = .next (select s) ∧ exec i (select s) = .next (transmit tx (some n) (select s)) ∧
      exec i (transmit tx (some n) (select s)) = .next (receive n (transmit tx (some n) (select s))) := by
  refine ⟨exec_sel hencode hrun hsel, exec_tx hencode hrun rfl, exec_rx hencode ?_ rfl ?_⟩ <;>
    rw [transmit_select_blk_some h]
  exact hrun

/-- The block after the Deselect of a successful frame, its result stored (R137). -/
def Block.stored (dst : Dst) (bytes : List Byte) (buf : Option (List Byte)) (b : Block) : Block :=
  ({ b.received buf with cs := false } : Block).record dst bytes

theorem stored_frame (dst : Dst) (bytes : List Byte) (buf : Option (List Byte)) (b : Block) :
    (b.stored dst bytes buf).phase = b.phase ∧ (b.stored dst bytes buf).cs = false ∧
    (b.stored dst bytes buf).pend = b.pend ∧ (b.stored dst bytes buf).rxbuf = buf ∧
    SameOperands b (b.stored dst bytes buf) := by
  cases dst <;> exact ⟨rfl, rfl, rfl, rfl, rfl, rfl, rfl, rfl⟩

/-- Store writes the destination's field and no other (R137). -/
theorem stored_results {dst : Dst} {bytes : List Byte} (h : dst = .rd ∨ bytes.length = 1) (buf : Option (List Byte))
    (b : Block) :
    (b.stored dst bytes buf).bstate = (if dst = .bq then bytes.head?.map decodeBusy else b.bstate) ∧
    (b.stored dst bytes buf).sr1 = (if dst = .sr1 then bytes.head? else b.sr1) ∧
    (b.stored dst bytes buf).sr2 = (if dst = .sr2 then bytes.head? else b.sr2) ∧
    (b.stored dst bytes buf).rdata = (if dst = .rd then some bytes else b.rdata) := by
  obtain rfl | hone := h
  · exact ⟨rfl, rfl, rfl, rfl⟩
  · obtain ⟨x, rfl⟩ := List.length_eq_one_iff.mp hone
    cases dst <;> exact ⟨rfl, rfl, rfl, rfl⟩

/-- The end of a successful frame stores its bytes and advances (R134, R137, R150). -/
theorem endFrame_stores {s u : State} {c : Current} {tx bytes : List Byte} {rx : Option Nat} {dst : Dst}
    {buf : Option (List Byte)} (hu : u.blk = s.blk.received buf) (hrun : s.blk.phase = .run)
    (hpend : s.blk.pend = none) (hc : s.blk.current = .ok c) (hm : c.mop = .frame tx rx dst) (hfits : dst.Fits rx)
    (hbuf : ∀ n, rx = some n → buf = some bytes ∧ bytes.length = n) :
    ∃ t, endFrame u = .next t ∧ Advanced c t ∧
      t.trace = u.trace ++ [.desel] ++ okEvents c (s.blk.stored dst bytes buf) ∧ t.world = u.world.deselect ∧
      SameData (s.blk.stored dst bytes buf) t.blk ∧ SamePorts u t := by
  have hpend' : u.blk.pend = none := by rw [hu]; exact hpend
  have hc' : u.blk.current = .ok c := by rw [hu]; exact hc
  have hstore : store dst (deselect u).blk = .ok (s.blk.stored dst bytes buf) := by
    have hblk : (deselect u).blk = { s.blk.received buf with cs := false } := by rw [← hu]; rfl
    rw [hblk]
    exact store_eq_record hfits hbuf
  obtain ⟨hphase, hcs, -⟩ := stored_frame dst bytes buf s.blk
  exact ⟨advance c { deselect u with blk := s.blk.stored dst bytes buf },
    by simp only [endFrame, hpend', hc', hm, hstore], advanced_advance (hphase.trans hrun) hcs,
    advance_trace _ _, advance_world _ _,
    advance_sameData c { deselect u with blk := s.blk.stored dst bytes buf }, advance_ports _ _⟩

theorem fits_of_rd_or_one {dst : Dst} {n : Nat} (h : dst = .rd ∨ n = 1) : dst.Fits (some n) := by
  obtain rfl | rfl := h
  · exact ⟨n, rfl⟩
  · cases dst with
    | none => trivial
    | bq | sr1 | sr2 => rfl
    | rd => exact ⟨1, rfl⟩

theorem sameOperands_trans {b b' b'' : Block} (h : SameOperands b b') (h' : SameOperands b' b'') :
    SameOperands b b'' :=
  ⟨h'.1.trans h.1, h'.2.1.trans h.2.1, h'.2.2.1.trans h.2.2.1, h'.2.2.2.trans h.2.2.2⟩

/-! The decision of a poll (R144, R145). -/

theorem pollDecision_sameData (c : Current) (x : BusyState) (s : State) : SameData s.blk (pollDecision c x s).blk := by
  have hfinish : ∀ (o : OpOutcome) (polls : Nat),
      SameData s.blk (finish o { s with blk := { s.blk with polls := polls } }).blk :=
    fun _ polls => sameData_of_control s.blk .idle s.blk.upc s.blk.fstep polls
  cases x with
  | notBusy =>
    simp only [pollDecision, advance_blk]
    exact sameData_of_control s.blk _ _ _ _
  | indeterminate => exact hfinish _ _
  | busy =>
    simp only [pollDecision]
    split
    · exact hfinish _ _
    · exact sameData_of_control s.blk s.blk.phase s.blk.upc _ _

theorem pollDecision_ports (c : Current) (x : BusyState) (s : State) : SamePorts s (pollDecision c x s) := by
  cases x with
  | notBusy => exact advance_ports c _
  | indeterminate => exact ⟨rfl, rfl, rfl⟩
  | busy => simp only [pollDecision]; split <;> exact ⟨rfl, rfl, rfl⟩

theorem pollDecision_below {s : State} (h : limitReached s.cfg (s.blk.polls + 1) = none) (c : Current) :
    pollDecision c .busy s = { s with blk := { s.blk with polls := s.blk.polls + 1, fstep := some .sel } } := by
  simp [pollDecision, h]

theorem pollDecision_at_limit {s : State} {l : Nat} (h : limitReached s.cfg (s.blk.polls + 1) = some l)
    (c : Current) :
    pollDecision c .busy s = finish (.pollLimit l) { s with blk := { s.blk with polls := s.blk.polls + 1 } } := by
  simp [pollDecision, h]

theorem limitReached_eq_some {cfg : Cfg} {k l : Nat} (hl : cfg.pollLimit = some l) (h : l ≤ k) :
    limitReached cfg k = some l := by
  simp [limitReached, hl, h]

/-! A transfer that fails (R135). -/

/-- The Deselect of a failed frame ends the operation with the transport's error (R135, R251). -/
theorem exec_failed {i : Instr} {s u : State} {tx : List Byte} {rx : Option Nat} {e : TErr}
    (hencode : encode i = .frame tx rx) (hrun : s.blk.phase = .run)
    (hu : u.blk = { s.blk with pend := some (.transportError e), fstep := some .desel }) :
    exec i u = .next (finish (.transportError e) (deselect u)) := by
  have hend : endFrame u = .next (finish (.transportError e) (deselect u)) := by simp [endFrame, hu]
  rw [exec_desel hencode (by rw [hu]; exact hrun) (by rw [hu]), hend]

/-- The block in which such an operation has ended. -/
theorem failed_blk {s u : State} {e : TErr}
    (hu : u.blk = { s.blk with pend := some (.transportError e), fstep := some .desel }) :
    (finish (.transportError e) (deselect u)).blk =
      { s.blk with phase := .idle, cs := false, pend := some (.transportError e), fstep := some .desel } := by
  simp [finish, deselect, hu]

end Sys2Proof.Machine

open Sys2Proof Sys2Proof.Machine Sys2Proof.Claims

/-- Settles O19: the frame stores nothing, so its Deselect only advances. -/
theorem sendFrameCompletes : Obligations.SendFrameCompletes := by
  intro i s tx c _ hencode hrun hsel hpend hc hm hres
  have hblk := transmit_select_blk_none hres tx
  have htx : (select s).world.txResult = .ok := hres
  obtain ⟨t, hend, hadvanced, htrace, hworld, hdata, hports⟩ :=
    endFrame_stores (bytes := []) hblk hrun hpend hc hm trivial (by simp)
  refine ⟨select s, transmit tx none (select s), t, exec_sel hencode hrun hsel, exec_tx hencode hrun rfl,
    (exec_desel hencode (by rw [hblk]; exact hrun) (by rw [hblk]; rfl)).trans hend, rfl, by rw [hblk]; rfl,
    hadvanced, ?_, hworld, hdata.pend.trans hpend, hdata.rxbuf, hdata.operands, hdata.results, hports⟩
  have hok : okEvents c (s.blk.stored .none [] s.blk.rxbuf) = okEvents c s.blk :=
    okEvents_congr ⟨rfl, rfl, rfl, rfl⟩ ⟨rfl, rfl, rfl, rfl⟩ c
  rw [htrace, transmit_trace, htx, hok]
  simp

/-- Settles O20: the Deselect records the received bytes in the destination's field and advances. -/
theorem receiveFrameCompletes : Obligations.ReceiveFrameCompletes := by
  intro i s tx n dst c bs _ hencode hrun hsel hpend hc hm hdst hres hrx
  have hblk := receive_transmit_blk hres hrx
  have hlen := rxResult_length hrx
  obtain ⟨t, hend, hadvanced, htrace, hworld, hdata, hports⟩ :=
    endFrame_stores (bytes := bs) hblk hrun hpend hc hm (fits_of_rd_or_one hdst) (by simp [hlen])
  obtain ⟨h1, h2, h3⟩ := exec_receive_frame hencode hrun hsel hres
  obtain ⟨-, -, hpend', hrxbuf, hoperands⟩ := stored_frame dst bs (some bs) s.blk
  obtain ⟨hbstate, hsr1, hsr2, hrdata⟩ := stored_results (hlen ▸ hdst) (some bs) s.blk
  obtain ⟨hbstate', hsr1', hsr2', hrdata'⟩ := hdata.results
  refine ⟨_, _, _, t, h1, h2, h3, (exec_desel hencode (by rw [hblk]; exact hrun) (by rw [hblk]; rfl)).trans hend, rfl,
    by simp, by simp, hadvanced, ?_, hworld, hdata.pend.trans (hpend'.trans hpend), hdata.rxbuf.trans hrxbuf,
    hbstate'.trans hbstate, hsr1'.trans hsr1, hsr2'.trans hsr2, hrdata'.trans hrdata,
    sameOperands_trans hoperands hdata.operands, hports⟩
  rw [htrace, receive_transmit_trace hres hrx, okEvents_congr hdata.operands hdata.results]
  simp

/-- Settles O21: the Deselect of a poll decides by bit 0 of its byte. -/
theorem pollFrameDecidesTheWait : Obligations.PollFrameDecidesTheWait := by
  intro s c b hrun hsel hpend hc hm hres hrx
  have hencode : encode .rdsr1 = .frame [0x05] (some 1) := rfl
  have hblk := receive_transmit_blk hres hrx
  obtain ⟨h1, h2, h3⟩ := exec_receive_frame hencode hrun hsel hres
  have hend := (exec_desel hencode (by rw [hblk]; exact hrun) (by rw [hblk]; rfl)).trans
    (endFrame_poll (bytes := [b]) (by rw [hblk]; exact hpend) (by rw [hblk]; exact hc) hm (by rw [hblk]; rfl) rfl)
  rw [deselect_poll hres hrx, show Pseudo.rx0 [b] = b from rfl] at hend
  have hdata := pollDecision_sameData c (decodeBusy b) (s.afterPoll b)
  refine ⟨_, _, _, _, h1, h2, h3, hend, pollDecision_world c _ _, hdata.cs, hdata.pend.trans hpend, hdata.rxbuf,
    hdata.operands, hdata.results, pollDecision_ports c _ (s.afterPoll b), fun hbit => ?_, fun hbit hbelow => ?_,
    fun l hbit hl hreached => ?_⟩ <;> rw [decodeBusy_eq, hbit]
  · refine ⟨advanced_advance hrun rfl, (advance_trace c _).trans ?_⟩
    rw [okEvents_congr (b := s.blk) ⟨rfl, rfl, rfl, rfl⟩ ⟨rfl, rfl, rfl, rfl⟩]
    rfl
  · rw [if_pos rfl, pollDecision_below (s := s.afterPoll b) (limitReached_eq_none_iff.mpr hbelow)]
    exact ⟨hrun, rfl, rfl, rfl, rfl⟩
  · rw [if_pos rfl, pollDecision_at_limit (s := s.afterPoll b) (limitReached_eq_some hl hreached)]
    exact ⟨rfl, rfl, rfl⟩

/-- Settles O22: the error waits for the Deselect, and the response carries it. -/
theorem transmitErrorAborts : Obligations.TransmitErrorAborts := by
  intro i s tx rx e _ hencode hrun hfstep hres
  have hblk := transmit_blk_err (tx := tx) (rx := rx) hres
  refine ⟨_, _, exec_tx hencode hrun hfstep, exec_failed hencode hrun hblk, rfl, rfl, ?_⟩
  rw [failed_blk hblk]
  exact ⟨rfl, by simp [hres, responseFor], rfl, ⟨rfl, rfl, rfl, rfl⟩, ⟨rfl, rfl, rfl, rfl⟩, rfl, rfl, rfl, rfl⟩

/-- Settles O23: as for a Transmit; the bytes of a failed Receive reach no field. -/
theorem receiveErrorAborts : Obligations.ReceiveErrorAborts := by
  intro i s tx n e _ hencode hrun hfstep hres
  have hblk := receive_blk_err hres
  refine ⟨_, _, exec_rx hencode hrun rfl hfstep, exec_failed hencode hrun hblk, rfl, rfl, ?_⟩
  rw [failed_blk hblk]
  exact ⟨rfl, by simp [hres, responseFor], rfl, ⟨rfl, rfl, rfl, rfl⟩, ⟨rfl, rfl, rfl, rfl⟩, rfl, rfl, rfl, rfl⟩
end

section
/-! What of a Transmit's bytes reaches the device (R71, item 17), and what the device makes of them. -/

namespace Sys2Proof.Machine

theorem txReached_of_ok {w : World} (h : w.txResult = .ok) (tx : List Byte) : w.txReached tx = tx := by
  unfold World.txResult at h
  unfold World.txReached
  cases hanswer : w.nextAnswer with
  | ok bytes => rfl
  | err e reached => rw [hanswer] at h; cases h

/-- Whatever the answer, the first bytes of the transmit part reach the device, and no others (R71). -/
theorem exists_txReached (w : World) (tx : List Byte) : ∃ j, j ≤ tx.length ∧ w.txReached tx = tx.take j := by
  unfold World.txReached
  cases w.nextAnswer with
  | ok bytes => exact ⟨tx.length, le_rfl, tx.take_length.symm⟩
  | err e reached =>
    exact ⟨min reached tx.length, min_le_right _ _, List.take_eq_take_min⟩

end Sys2Proof.Machine

open Sys2Proof Sys2Proof.Machine

/-- Settles O59: the transport's answer fixes the bytes that reach the device, and the Deselect after a failure ends a frame of exactly those. -/
theorem failedTransmitReachesAPrefix : Obligations.FailedTransmitReachesAPrefix := by
  intro i s tx rx _ hencode hrun hfstep
  refine ⟨fun hres => ?ok, fun e hres => ?err, fun e j _ => ?every⟩
  case ok => exact ⟨_, exec_tx hencode hrun hfstep, txReached_of_ok hres tx⟩
  case err =>
    obtain ⟨j, hj, hreached⟩ := exists_txReached s.world tx
    have hwire : (s.world.transmit tx).wire = tx.take j := hreached
    refine ⟨j, _, _, exec_tx hencode hrun hfstep, exec_failed hencode hrun (transmit_blk_err hres), hj, hwire, rfl,
      fun hattached => ?_, fun horacle => frameEnd_dev_oracle (w := s.world.transmit tx) horacle _⟩
    rw [← hwire]
    exact frameEnd_dev_attached (w := s.world.transmit tx) hattached _
  case every =>
    exact ⟨_, exec_tx (s := { s with world := _ }) hencode hrun hfstep, rfl, rfl⟩
end

section
/-! The pseudocode in oracle mode (R6, R134, R144), where the script says what each transfer answers. -/

namespace Sys2Proof.Machine

open Sys2Proof.Claims

/-- The scene is in oracle mode, with these answers still to come (R6). -/
structure Scene.Scripted (answers : List Answer) (p : Scene) : Prop where
  oracle : p.world.attached = false
  answers : p.world.answers = answers

/-- A frame attaches no device. -/
theorem frame_attached {cfg : Cfg} {tx bytes : List Byte} {rx : Option Nat} {p q : Scene}
    (h : Pseudo.frame cfg tx rx p = .done bytes q) : q.world.attached = p.world.attached := by
  simp only [Pseudo.frame] at h
  split at h
  · cases h
  · split at h
    · cases h; simp [Pseudo.deselect, Pseudo.transmit, Pseudo.select]
    · split at h
      · cases h
      · cases h; simp [Pseudo.deselect, Pseudo.receive, Pseudo.transmit, Pseudo.select]

theorem frame_sent {cfg : Cfg} {p : Scene} {x : List Byte} {rest : List Answer}
    (h : p.Scripted (.ok x :: rest)) (tx : List Byte) :
    ∃ q, Pseudo.frame cfg tx none p = .done [] q ∧ q.trace = p.trace ++ sentEvents tx ∧ q.Scripted rest := by
  obtain ⟨q, hframe, htrace, hanswers⟩ := exists_frame_sent (cfg := cfg) h.answers tx
  exact ⟨q, hframe, htrace, (frame_attached hframe).trans h.oracle, hanswers⟩

/-- A frame that receives the scripted bytes (R64, R134). -/
theorem frame_received {cfg : Cfg} {p : Scene} {x bytes : List Byte} {rest : List Answer}
    (h : p.Scripted (.ok x :: .ok bytes :: rest)) (tx : List Byte) :
    ∃ q, Pseudo.frame cfg tx (some bytes.length) p = .done bytes q ∧
      q.trace = p.trace ++ [.sel, .tx tx .ok, .rx bytes.length (.ok bytes), .desel] ∧ q.Scripted rest := by
  have hres : (Pseudo.select cfg p).world.txResult = .ok := txResult_ok ((select_answers p.world cfg).trans h.answers)
  have hrx : (Pseudo.transmit tx (Pseudo.select cfg p)).world.rxResult cfg bytes.length = .ok bytes :=
    rxResult_oracle (rest := rest) ((select_attached p.world cfg).trans h.oracle)
      (by simp [Pseudo.transmit, Pseudo.select, h.answers])
  have hframe : Pseudo.frame cfg tx (some bytes.length) p = .done bytes (Pseudo.deselect
      (Pseudo.receive cfg bytes.length (Pseudo.transmit tx (Pseudo.select cfg p)))) := by
    simp [Pseudo.frame, hres, hrx]
  refine ⟨_, hframe, ?_, (frame_attached hframe).trans h.oracle, ?_⟩
  · simp only [Pseudo.deselect, Pseudo.receive, hrx]
    simp only [Pseudo.transmit, hres]
    simp [Pseudo.select]
  · simp [Pseudo.deselect, Pseudo.receive, Pseudo.transmit, Pseudo.select, h.answers]

/-- A frame whose Receive fails (R134, R135). -/
theorem frame_rxErr {cfg : Cfg} {p : Scene} {x : List Byte} {e : TErr} {reached : Nat} {rest : List Answer}
    (h : p.Scripted (.ok x :: .err e reached :: rest)) (tx : List Byte) (n : Nat) :
    ∃ q, Pseudo.frame cfg tx (some n) p = .raised (.transportError e) q ∧
      q.trace = p.trace ++ [.sel, .tx tx .ok, .rx n (.err e), .desel] ∧ q.world.answers = rest := by
  have hres : (Pseudo.select cfg p).world.txResult = .ok := txResult_ok ((select_answers p.world cfg).trans h.answers)
  have hrx : (Pseudo.transmit tx (Pseudo.select cfg p)).world.rxResult cfg n = .err e :=
    rxResult_err (r := reached) (rest := rest) (by simp [Pseudo.transmit, Pseudo.select, h.answers])
  refine ⟨Pseudo.deselect (Pseudo.receive cfg n (Pseudo.transmit tx (Pseudo.select cfg p))),
    by simp [Pseudo.frame, hres, hrx], ?_, ?_⟩
  · simp only [Pseudo.deselect, Pseudo.receive, hrx]
    simp only [Pseudo.transmit, hres]
    simp [Pseudo.select]
  · simp [Pseudo.deselect, Pseudo.receive, Pseudo.transmit, Pseudo.select, h.answers]

/-! Polls (R142, R144). -/

theorem decodeBusy_of_saysBusy {x : Byte} (h : saysBusy x) : decodeBusy x = .busy := by
  simp only [saysBusy] at h
  simp only [decodeBusy, h]
  rfl

theorem decodeBusy_of_saysIdle {x : Byte} (h : saysIdle x) : decodeBusy x = .notBusy := by
  simp only [saysIdle] at h
  simp only [decodeBusy, h]
  rfl

theorem pollAnswers_append (bs bs' : List Byte) : pollAnswers (bs ++ bs') = pollAnswers bs ++ pollAnswers bs' := by
  induction bs with
  | nil => rfl
  | cons b bs ih => simp [pollAnswers, ih]

theorem pollsEvents_append (bs bs' : List Byte) : pollsEvents (bs ++ bs') = pollsEvents bs ++ pollsEvents bs' := by
  induction bs with
  | nil => rfl
  | cons b bs ih => simp [pollsEvents, ih]

@[simp] theorem pollsEvents_length (bs : List Byte) : (pollsEvents bs).length = 4 * bs.length := by
  induction bs with
  | nil => rfl
  | cons b bs ih => simp [pollsEvents, pollEvents, ih]; omega

/-- One poll of the script. -/
theorem poll_scripted {cfg : Cfg} {p : Scene} {x : Byte} {rest : List Answer}
    (h : p.Scripted (pollAnswers [x] ++ rest)) :
    ∃ q, Pseudo.poll cfg p = .done (decodeBusy x) q ∧ q.trace = p.trace ++ pollEvents x ∧ q.Scripted rest := by
  obtain ⟨q, hframe, htrace, hq⟩ := frame_received (cfg := cfg) (bytes := [x]) h [0x05]
  rw [List.length_singleton] at hframe
  exact ⟨q, by rw [Pseudo.poll, hframe]; rfl, htrace, hq⟩

/-- Busy polls below POLL_LIMIT only use up the script and the fuel (R144, R145). -/
theorem waitIdle_busy {cfg : Cfg} {rest : List Answer} (fuel : Nat) (bs : List Byte) :
    ∀ (polls : Nat) (p : Scene), (∀ y ∈ bs, saysBusy y) → (∀ l, cfg.pollLimit = some l → polls + bs.length < l) →
      p.Scripted (pollAnswers bs ++ rest) →
      ∃ q, Pseudo.waitIdle cfg (bs.length + fuel) polls p = Pseudo.waitIdle cfg fuel (polls + bs.length) q ∧
        q.trace = p.trace ++ pollsEvents bs ∧ q.Scripted rest := by
  induction bs with
  | nil => exact fun polls p _ _ hp => ⟨p, by simp, by simp [pollsEvents], hp⟩
  | cons y bs ih =>
    intro polls p hbusy hlimit hp
    obtain ⟨q, hpoll, htrace, hq⟩ := poll_scripted (cfg := cfg) hp
    have hbelow : limitReached cfg (polls + 1) = none :=
      limitReached_eq_none_iff.mpr fun l hl => by have := hlimit l hl; rw [List.length_cons] at this; omega
    obtain ⟨q', hwait, htrace', hq'⟩ := ih (polls + 1) q (fun z hz => hbusy z (List.mem_cons_of_mem y hz))
      (fun l hl => by have := hlimit l hl; rw [List.length_cons] at this; omega) hq
    refine ⟨q', ?_, by rw [htrace', htrace, List.append_assoc]; rfl, hq'⟩
    rw [List.length_cons, Nat.add_right_comm, Pseudo.waitIdle, hpoll, Run.andThen,
      decodeBusy_of_saysBusy (hbusy y List.mem_cons_self)]
    simp only [hbelow, hwait, Nat.add_assoc, Nat.add_comm 1]

/-- A wait that the script ends with a NotBusy poll within POLL_LIMIT (R144). -/
theorem waitIdle_scripted {cfg : Cfg} {p : Scene} {bs : List Byte} {b : Byte} {rest : List Answer} {fuel : Nat}
    (hfuel : bs.length < fuel) (hlimit : ∀ l, cfg.pollLimit = some l → bs.length + 1 ≤ l)
    (hbusy : ∀ y ∈ bs, saysBusy y) (hidle : saysIdle b) (hp : p.Scripted (pollAnswers bs ++ pollAnswers [b] ++ rest)) :
    ∃ q, Pseudo.waitIdle cfg fuel 0 p = .done () q ∧ q.trace = p.trace ++ (pollsEvents bs ++ pollEvents b) ∧
      q.Scripted rest := by
  obtain ⟨k, rfl⟩ := Nat.exists_eq_add_of_lt hfuel
  rw [List.append_assoc] at hp
  obtain ⟨q, hwait, htrace, hq⟩ := waitIdle_busy (cfg := cfg) (k + 1) bs 0 p hbusy
    (fun l hl => by have := hlimit l hl; omega) hp
  obtain ⟨q', hpoll, htrace', hq'⟩ := poll_scripted (cfg := cfg) hq
  refine ⟨q', ?_, by rw [htrace', htrace, List.append_assoc], hq'⟩
  rw [Nat.add_assoc, hwait, Pseudo.waitIdle, hpoll, Run.andThen, decodeBusy_of_saysIdle hidle]

/-- A wait whose Busy polls reach POLL_LIMIT (R145, R254). -/
theorem waitIdle_limit {cfg : Cfg} {p : Scene} {bs : List Byte} {rest : List Answer} (hne : bs ≠ [])
    (hlimit : cfg.pollLimit = some bs.length) (hbusy : ∀ y ∈ bs, saysBusy y)
    (hp : p.Scripted (pollAnswers bs ++ rest)) :
    ∃ q, Pseudo.waitIdle cfg bs.length 0 p = .raised (.pollLimit bs.length) q ∧
      q.trace = p.trace ++ pollsEvents bs ∧ q.Scripted rest := by
  obtain ⟨init, y, rfl⟩ := (List.eq_nil_or_concat' bs).resolve_left hne
  rw [pollAnswers_append, List.append_assoc] at hp
  rw [List.length_append, List.length_singleton] at hlimit ⊢
  obtain ⟨q, hwait, htrace, hq⟩ := waitIdle_busy (cfg := cfg) 1 init 0 p
    (fun z hz => hbusy z (List.mem_append_left _ hz)) (fun l hl => by rw [hlimit] at hl; cases hl; omega) hp
  obtain ⟨q', hpoll, htrace', hq'⟩ := poll_scripted (cfg := cfg) hq
  have hreached : limitReached cfg (0 + init.length + 1) = some (init.length + 1) :=
    limitReached_eq_some hlimit (by omega)
  refine ⟨q', ?_, by rw [htrace', htrace, pollsEvents_append, List.append_assoc]; rfl, hq'⟩
  rw [hwait, Pseudo.waitIdle, hpoll, Run.andThen, decodeBusy_of_saysBusy (hbusy y (by simp))]
  simp only [hreached]

/-- Where an operation starts, the script is all still to come. -/
theorem scripted_of_started {op : HostOp} {a : Addr} {n : Nat} {p : Option (List Byte)} {s s0 : State}
    {answers : List Answer} (h : Started op a n p s s0) (hanswers : s.world.answers = answers) :
    (Scene.mk s0.world s0.trace).Scripted answers := by
  rw [h.accepted.world]
  exact ⟨h.oracle, hanswers⟩

/-- The run of an operation that has just started in oracle mode, read off its pseudocode. -/
theorem endsWith_of_started {s s0 : State} {op : HostOp} {a : Addr} {n k fuel : Nat} {d : List Byte}
    {payload : Option (List Byte)} {r : Response} {q : Scene} {events : List Event} {rest : List Answer}
    (h : Started op a n payload s s0) (hpayload : op = .programPage → payload = some d)
    (hr : Pseudo.result (Pseudo.operation s.cfg fuel op a n d ⟨s0.world, s0.trace⟩) = some (r, q))
    (htrace : q.trace = s0.trace ++ events) (hk : events.length = k) (hq : q.Scripted rest) :
    EndsWith k s0 (events ++ [.resp r]) rest :=
  endsWith_of_result h.accepted h.noReset h.cs hpayload hr htrace hk hq.answers

end Sys2Proof.Machine
end

section
/-! The runs of the host operations in oracle mode (R190 to R235): each is its pseudocode, frame by frame along the script. -/

namespace Sys2Proof.Machine

open Sys2Proof.Claims

/-- An operation whose first wait ends at POLL_LIMIT raises it, whatever follows the wait (R145, R152). -/
theorem operation_of_wait_raised {cfg : Cfg} {fuel : Nat} {op : HostOp} {o : OpOutcome} {p q : Scene} (hop : Waits op)
    (h : Pseudo.waitIdle cfg fuel 0 p = .raised o q) (a : Addr) (n : Nat) (d : List Byte) :
    Pseudo.operation cfg fuel op a n d p = .raised o q := by
  obtain rfl | rfl | rfl | rfl | rfl := hop <;>
    simp only [Pseudo.operation, Pseudo.setWriteEnable, Pseudo.eraseSector, Pseudo.eraseChip, Pseudo.programPage,
      Pseudo.writeClass, Pseudo.readData, h, Run.andThen]

/-- A write-class operation along its script (R141): wait, WREN, wait, command frame. -/
theorem writeClass_scripted {cfg : Cfg} {p : Scene} {bs1 bs2 x y : List Byte} {b1 b2 : Byte} {rest : List Answer}
    (hlimit : ∀ l, cfg.pollLimit = some l → bs1.length + 1 ≤ l ∧ bs2.length + 1 ≤ l)
    (hbusy : ∀ z ∈ bs1 ++ bs2, saysBusy z) (hidle1 : saysIdle b1) (hidle2 : saysIdle b2)
    (hp : p.Scripted
      (pollAnswers bs1 ++ pollAnswers [b1] ++ .ok x :: (pollAnswers bs2 ++ pollAnswers [b2] ++ .ok y :: rest)))
    (command : List Byte) :
    ∃ q, Pseudo.writeClass cfg (bs1.length + bs2.length + 1) command p = .done Pseudo.okPlain q ∧
      q.trace = p.trace ++ (pollsEvents bs1 ++ pollEvents b1 ++ sentEvents [0x06] ++ pollsEvents bs2 ++ pollEvents b2 ++
        sentEvents command) ∧ q.Scripted rest := by
  obtain ⟨p1, hwait1, htrace1, hp1⟩ := waitIdle_scripted (fuel := bs1.length + bs2.length + 1) (by omega)
    (fun l hl => (hlimit l hl).1) (fun z hz => hbusy z (List.mem_append_left _ hz)) hidle1 hp
  obtain ⟨p2, hwren, htrace2, hp2⟩ := frame_sent (cfg := cfg) hp1 [0x06]
  obtain ⟨p3, hwait2, htrace3, hp3⟩ := waitIdle_scripted (fuel := bs1.length + bs2.length + 1) (by omega)
    (fun l hl => (hlimit l hl).2) (fun z hz => hbusy z (List.mem_append_right _ hz)) hidle2 hp2
  obtain ⟨p4, hcommand, htrace4, hp4⟩ := frame_sent (cfg := cfg) hp3 command
  refine ⟨p4, ?_, by simp [htrace4, htrace3, htrace2, htrace1], hp4⟩
  simp only [Pseudo.writeClass, hwait1, hwren, hwait2, hcommand, Run.andThen]

end Sys2Proof.Machine

open Sys2Proof Sys2Proof.Machine Sys2Proof.Claims

/-- Settles O25: a wait that ends NotBusy, and the WREN frame. -/
theorem setWriteEnableRun : Obligations.SetWriteEnableRun := by
  intro s s0 a n bs b x rest h hlimit hbusy hidle hanswers
  obtain ⟨p1, hwait, htrace1, hp1⟩ :=
    waitIdle_scripted (Nat.lt_succ_self _) hlimit hbusy hidle (scripted_of_started h hanswers)
  obtain ⟨p2, hwren, htrace2, hp2⟩ := frame_sent (cfg := s.cfg) hp1 [0x06]
  exact endsWith_of_started h (fuel := bs.length + 1) (d := []) (r := Pseudo.okPlain) (by simp)
    (by simp only [Pseudo.operation, Pseudo.setWriteEnable, hwait, hwren, Run.andThen]; rfl)
    (by simp [htrace2, htrace1]) (by simp [pollEvents, sentEvents]; omega) hp2

/-- Settles O27: one frame and no wait. -/
theorem queryBusyRun : Obligations.QueryBusyRun := by
  intro s s0 a n x b rest h hanswers
  obtain ⟨p1, hframe, htrace, hp1⟩ :=
    frame_received (cfg := s.cfg) (bytes := [b]) (scripted_of_started h hanswers) [0x05]
  rw [List.length_singleton] at hframe
  rw [← decodeBusy_eq]
  exact endsWith_of_started h (fuel := 0) (d := []) (by simp)
    (by simp only [Pseudo.operation, Pseudo.queryBusy, hframe, Run.andThen]; rfl) htrace rfl hp1

/-- Settles O28: two frames, each byte in its own field. -/
theorem readStatusSnapshotRun : Obligations.ReadStatusSnapshotRun := by
  intro s s0 a n x y b1 b2 rest h hanswers
  obtain ⟨p1, hframe1, htrace1, hp1⟩ :=
    frame_received (cfg := s.cfg) (bytes := [b1]) (scripted_of_started h hanswers) [0x05]
  obtain ⟨p2, hframe2, htrace2, hp2⟩ := frame_received (cfg := s.cfg) (bytes := [b2]) hp1 [0x35]
  rw [List.length_singleton] at hframe1 hframe2
  exact endsWith_of_started h (fuel := 0) (d := []) (by simp)
    (by simp only [Pseudo.operation, Pseudo.readStatusSnapshot, hframe1, hframe2, Run.andThen]; rfl)
    (by simp [htrace2, htrace1]) rfl hp2

/-- Settles O29: the first frame raises, which skips the second and the response's data. -/
theorem snapshotAbortReturnsNoByte : Obligations.SnapshotAbortReturnsNoByte := by
  intro s s0 a n x e reached rest h hanswers
  obtain ⟨q, hframe, htrace, hrest⟩ := frame_rxErr (cfg := s.cfg) (scripted_of_started h hanswers) [0x05] 1
  exact endsWith_of_result (fuel := 0) (d := []) (r := Pseudo.abortResponse (.transportError e)) h.accepted h.noReset
    h.cs (by simp) (by simp only [Pseudo.operation, Pseudo.readStatusSnapshot, hframe, Run.andThen]; rfl) htrace rfl
    hrest

/-- Settles O30: the three operations differ in their command frame alone. -/
theorem writeClassRun : Obligations.WriteClassRun := by
  intro s s0 op a n d bs1 bs2 b1 b2 x y rest payload frame hop h hlimit hbusy hidle1 hidle2 hanswers
  obtain ⟨q, hrun, htrace, hq⟩ := writeClass_scripted hlimit hbusy hidle1 hidle2 (scripted_of_started h hanswers) frame
  have hoperation : Pseudo.operation s.cfg (bs1.length + bs2.length + 1) op a n d ⟨s0.world, s0.trace⟩ =
      .done Pseudo.okPlain q := by
    rw [← hrun]
    obtain ⟨rfl, -, rfl⟩ | ⟨rfl, -, rfl⟩ | ⟨rfl, -, rfl⟩ := hop <;> rfl
  have hpayload : op = .programPage → payload = some d := by
    rintro rfl
    obtain ⟨hop, -⟩ | ⟨hop, -⟩ | ⟨-, hpayload, -⟩ := hop
    · cases hop
    · cases hop
    · exact hpayload
  exact endsWith_of_started h (r := Pseudo.okPlain) hpayload (by rw [hoperation]; rfl) htrace
    (by simp [pollEvents, sentEvents]; omega) hq

/-- Settles O31: a wait that ends NotBusy, and the READ frame. -/
theorem readDataRun : Obligations.ReadDataRun := by
  intro s s0 a bs b x data rest h hlimit hbusy hidle hanswers
  obtain ⟨p1, hwait, htrace1, hp1⟩ :=
    waitIdle_scripted (Nat.lt_succ_self _) hlimit hbusy hidle (scripted_of_started h hanswers)
  obtain ⟨p2, hread, htrace2, hp2⟩ := frame_received (cfg := s.cfg) hp1 (0x03 :: addrBytes a)
  exact endsWith_of_started h (fuel := bs.length + 1) (d := []) (by simp)
    (by simp only [Pseudo.operation, Pseudo.readData, hwait, hread, Run.andThen]; rfl)
    (by simp [htrace2, htrace1]) (by simp [pollEvents]; omega) hp2

/-- Settles O32: two frames without a receive part, whose successful Transmits no device can change. -/
theorem resetDeviceRun : Obligations.ResetDeviceRun := by
  intro s s0 a n x y rest h hpin hcs hanswers
  rw [← h.world] at hanswers
  obtain ⟨p1, hrsten, htrace1, hrest1⟩ :=
    exists_frame_sent (cfg := s.cfg) (p := ⟨s0.world, s0.trace⟩) hanswers [0x66]
  obtain ⟨p2, hrst, htrace2, hrest2⟩ := exists_frame_sent (cfg := s.cfg) hrest1 [0x99]
  exact endsWith_of_result (fuel := 0) (d := []) (r := Pseudo.okPlain) h hpin hcs (by simp)
    (by simp only [Pseudo.operation, Pseudo.resetDevice, hrsten, hrst, Run.andThen]; rfl)
    (by simp [htrace2, htrace1]) rfl hrest2

/-- Settles O33: the first wait raises, which skips the rest of the operation. -/
theorem pollLimitEndsTheWait : Obligations.PollLimitEndsTheWait := by
  intro s s0 op a n payload bs rest hop hpayload h hlimit hne hbusy hanswers
  obtain ⟨q, hwait, htrace, hq⟩ := waitIdle_limit hne hlimit hbusy (scripted_of_started h hanswers)
  exact endsWith_of_started h (r := Pseudo.abortResponse (.pollLimit bs.length)) (payload_eq_some_getD hpayload)
    (by rw [operation_of_wait_raised hop hwait]; rfl) htrace (by simp) hq
end

section
/-! A wait that never ends (R149, R305): each Busy poll is four steps of the machine, back to the same sub-step. -/

namespace Sys2Proof.Machine

open Sys2Proof.Claims

/-- The state after a Busy poll below POLL_LIMIT: about to poll again (R144). -/
def State.pollAgain (x : Byte) (s : State) : State :=
  { s.afterPoll x with blk := { (s.afterPoll x).blk with polls := s.blk.polls + 1, fstep := some .sel } }

/-- The block stands at the Select of a poll of the micro-operation `c`, in oracle mode with a script and no reset. -/
structure AtPoll (c : Current) (answers : List Answer) (s : State) : Prop where
  pin : s.resetPin = false
  run : s.blk.phase = .run
  pend : s.blk.pend = none
  fstep : s.blk.fstep = some .sel
  current : s.blk.current = .ok c
  oracle : s.world.attached = false
  answers : s.world.answers = answers

/-- One Busy poll: four steps, the byte's poll frame in the trace, and the block about to poll again (R144, R150). -/
theorem runSteps_busyPoll {s : State} {c : Current} {x : Byte} {rest : List Answer}
    (h : AtPoll c (pollAnswers [x] ++ rest) s) (hm : c.mop = .waitIdle) (hbusy : saysBusy x)
    (hlimit : limitReached s.cfg (s.blk.polls + 1) = none) :
    runSteps 4 s = .next (s.pollAgain x) ∧ AtPoll c rest (s.pollAgain x) := by
  have hencode : encode .rdsr1 = .frame [0x05] (some 1) := rfl
  have hanswers := (select_answers s.world s.cfg).trans h.answers
  have hres : (s.world.select s.cfg).txResult = .ok := txResult_ok hanswers
  have hrx : ((s.world.select s.cfg).transmit [0x05]).rxResult s.cfg 1 = .ok [x] :=
    rxResult_oracle (bs := [x]) (rest := rest) ((select_attached s.world s.cfg).trans h.oracle)
      (by rw [transmit_answers, hanswers]; rfl)
  have hblk := receive_transmit_blk hres hrx
  obtain ⟨h1, h2, h3⟩ := exec_receive_frame hencode h.run h.fstep hres
  have hstep : ∀ u : State, u.resetPin = false → u.blk.phase = .run → u.blk.current = .ok c → step u = exec .rdsr1 u :=
    fun u hpin hrun hc =>
      stepRunsTheFetchedWireInstruction u c .rdsr1 hpin hrun hc (by rw [hm]; exact decodeFrame_of_encode hencode)
  have h4 : exec .rdsr1 (receive 1 (transmit [0x05] (some 1) (select s))) = .next (s.pollAgain x) := by
    rw [exec_desel hencode (by rw [hblk]; exact h.run) (by rw [hblk]; rfl), endFrame_poll (c := c) (bytes := [x])
      (by rw [hblk]; exact h.pend) (by rw [hblk]; exact h.current) hm (by rw [hblk]; rfl) rfl, deselect_poll hres hrx,
      show Pseudo.rx0 [x] = x from rfl, decodeBusy_of_saysBusy hbusy, pollDecision_below (s := s.afterPoll x) hlimit]
    rfl
  have htx := transmit_select_blk_some hres [0x05] 1
  have hstep1 := hstep s h.pin h.run h.current
  have hstep2 := hstep (select s) h.pin h.run h.current
  have hstep3 := hstep (transmit [0x05] (some 1) (select s)) h.pin (by rw [htx]; exact h.run)
    (by rw [htx]; exact h.current)
  have hstep4 := hstep (receive 1 (transmit [0x05] (some 1) (select s))) h.pin (by rw [hblk]; exact h.run)
    (by rw [hblk]; exact h.current)
  constructor
  · rw [runSteps_succ (hstep1.trans h1), runSteps_succ (hstep2.trans h2), runSteps_succ (hstep3.trans h3),
      runSteps_succ (hstep4.trans h4), runSteps_zero]
  · refine ⟨h.pin, h.run, h.pend, rfl, h.current, ?_, ?_⟩
    · simp [State.pollAgain, State.afterPoll, h.oracle]
    · simp [State.pollAgain, State.afterPoll, h.answers, pollAnswers]

/-- With POLL_LIMIT UNBOUNDED any number of Busy polls leaves the block about to poll again (R149). -/
theorem runSteps_busyPolls {c : Current} {rest : List Answer} (hm : c.mop = .waitIdle) (bs : List Byte) :
    ∀ s : State, s.cfg.pollLimit = none → (∀ y ∈ bs, saysBusy y) → AtPoll c (pollAnswers bs ++ rest) s →
      ∃ t, runSteps (4 * bs.length) s = .next t ∧ AtPoll c rest t ∧ t.blk.polls = s.blk.polls + bs.length ∧
        t.trace = s.trace ++ pollsEvents bs := by
  induction bs with
  | nil => exact fun s _ _ h => ⟨s, rfl, h, rfl, (List.append_nil _).symm⟩
  | cons y bs ih =>
    intro s hlimit hbusy h
    obtain ⟨hpoll, hat⟩ := runSteps_busyPoll (rest := pollAnswers bs ++ rest) h hm (hbusy y List.mem_cons_self)
      (by simp [limitReached, hlimit])
    obtain ⟨t, hrun, hat', hpolls, htrace⟩ :=
      ih (s.pollAgain y) hlimit (fun z hz => hbusy z (List.mem_cons_of_mem y hz)) hat
    refine ⟨t, ?_, hat', ?_, ?_⟩
    · rw [List.length_cons, Nat.mul_succ, Nat.add_comm, runSteps_add hpoll, hrun]
    · rw [hpolls, List.length_cons, Nat.add_comm bs.length, ← Nat.add_assoc]; rfl
    · rw [htrace, pollsEvents, ← List.append_assoc]; rfl

/-- The five waiting operations begin with a WAIT_IDLE (R140, R256). -/
theorem exists_current_waits {op : HostOp} {a : Addr} {n : Nat} {p : Option (List Byte)} {s t : State} (hop : Waits op)
    (hpayload : op = .programPage → p ≠ none) (h : Accepted op a n p s t) :
    ∃ size, t.blk.current = .ok ⟨.waitIdle, 0, size⟩ := by
  have hreadOp : t.blk.readOp = .ok op := by simp [Block.readOp, h.op]
  have hreadAddr : t.blk.readAddr = .ok a := by simp [Block.readAddr, h.addr]
  have hreadLen : t.blk.readLen = .ok n := by simp [Block.readLen, h.len]
  have hprog : ∃ ms, t.blk.prog = .ok (.waitIdle :: ms) := by
    obtain rfl | rfl | rfl | rfl | rfl := hop
    · exact ⟨_, by simp only [Block.prog, hreadOp, progSetWriteEnable]; rfl⟩
    · exact ⟨_, by simp only [Block.prog, hreadOp, progEraseSector, hreadAddr]; rfl⟩
    · exact ⟨_, by simp only [Block.prog, hreadOp, progEraseChip]; rfl⟩
    · obtain ⟨d, hd⟩ := Option.ne_none_iff_exists'.mp (hpayload rfl)
      have hreadPayload : t.blk.readPayload = .ok d := by simp [Block.readPayload, h.payload, hd]
      exact ⟨_, by simp only [Block.prog, hreadOp, progProgramPage, hreadAddr, hreadPayload]; rfl⟩
    · exact ⟨_, by simp only [Block.prog, hreadOp, progReadData, hreadAddr, hreadLen]; rfl⟩
  obtain ⟨ms, hms⟩ := hprog
  exact ⟨_, by simp only [Block.current, hms, Block.readUpc, h.upc]; rfl⟩

end Sys2Proof.Machine

open Sys2Proof Sys2Proof.Machine Sys2Proof.Claims

/-- Settles O34: the operation begins with its wait, and each Busy poll leaves it there. -/
theorem unboundedWaitNeverEndsWhileBusy : Obligations.UnboundedWaitNeverEndsWhileBusy := by
  intro s s0 op a n payload bs rest hop hpayload hstarted hlimit hbusy hanswers
  have h := hstarted.accepted
  obtain ⟨size, hc⟩ := exists_current_waits hop hpayload h
  have hat : AtPoll ⟨.waitIdle, 0, size⟩ (pollAnswers bs ++ rest) s0 :=
    ⟨h.pin.trans hstarted.noReset, h.phase, h.pend, h.fstep, hc, by rw [h.world]; exact hstarted.oracle,
      by rw [h.world]; exact hanswers⟩
  obtain ⟨t, hrun, hat', hpolls, htrace⟩ := runSteps_busyPolls rfl bs s0 (by rw [h.cfg]; exact hlimit) hbusy hat
  obtain ⟨-, -, hupc, -⟩ := current_ok hat'.current
  exact ⟨t, hrun, hat'.run, hupc, hat'.fstep, by rw [hpolls, h.polls, Nat.zero_add], htrace, hat'.answers, hat'.pend⟩
end

section
/-! The device's reaction to a whole frame (R72, R79, R161 to R173), and what an RSTEN leaves outstanding (item 32). -/

namespace Sys2Proof.Machine

open Sys2Proof.Claims

theorem busy_eq_false_iff {d : Device} : d.busy = false ↔ d.pending = none := by
  simp [Device.busy]

/-- The device decodes a whole frame to its instruction, but for the receive length, which no reaction depends on (log entry 22). -/
theorem exists_decodeWire_of_encode {i : Instr} {tx : List Byte} {rx : Option Nat} (h : encode i = .frame tx rx) :
    ∃ i', decodeWire 0 tx = .ok (i', []) ∧ ∀ k d, Device.react k d i' = Device.react k d i := by
  have hwire := (decodeFrame_ok (decodeFrame_of_encode h)).1
  cases i <;> simp only [encode, Encoded.frame.injEq, reduceCtorEq] at h <;> obtain ⟨rfl, rfl⟩ := h
  case read a n =>
    have hzero : encode (.read a 0) = .frame (txBytes .w4 opcREAD a []) (some 0) := rfl
    exact ⟨.read a 0, (decodeFrame_ok (decodeFrame_of_encode hzero)).1, fun _ _ => rfl⟩
  case rdsr1 | rdsr2 => exact ⟨_, rfl, fun _ _ => rfl⟩
  all_goals exact ⟨_, hwire, fun _ _ => rfl⟩

/-- The end of a whole frame, with no RSTEN outstanding, is the device's reaction to its instruction (R79). -/
theorem frameEnd_of_encode {d : Device} {i : Instr} {tx : List Byte} {rx : Option Nat} (harmed : d.armed = false)
    (h : encode i = .frame tx rx) (k : Nat) : d.frameEnd k tx = d.react k i := by
  obtain ⟨opc, rest, rfl, -⟩ := encode_frame_opcode h
  obtain ⟨i', hwire, hreact⟩ := exists_decodeWire_of_encode h
  simp only [Device.frameEnd, hwire, harmed, ← hreact]
  rfl

theorem deselect_react {w : World} {i : Instr} {tx : List Byte} {rx : Option Nat} (hattached : w.attached = true)
    (harmed : w.dev.armed = false) (h : encode i = .frame tx rx) :
    ∃ k, ({ w with wire := tx } : World).deselect.dev = w.dev.react k i := by
  obtain ⟨k, hk⟩ := frameEnd_dev_attached (w := { w with wire := tx }) hattached tx
  exact ⟨k, hk.trans (frameEnd_of_encode harmed h k)⟩

theorem start_idle {d : Device} (h : d.pending = none) (k : Nat) (p : Pending) :
    d.start k p = if d.wel then { d.touch k with pending := some p } else d := by
  simp [Device.start, busy_eq_false_iff.mpr h]

/-- Of the instructions sent to an idle device only RST can change the array at once (R79, R172, R175). -/
theorem react_array_idle {d : Device} {i : Instr} (h : d.pending = none) (hrst : i ≠ .rst) (k : Nat) :
    (d.react k i).array = d.array := by
  have hbusy := busy_eq_false_iff.mpr h
  have hstart : ∀ p, (d.start k p).array = d.array := fun p => by
    rw [start_idle h]
    split <;> rfl
  cases i with
  | wren => simp [Device.react, Device.onWren, hbusy, Device.touch]
  | read a n => simp [Device.react, Device.onRead, hbusy]
  | pp a data => exact hstart _
  | se a => exact hstart _
  | ce => exact hstart _
  | rsten => simp [Device.react, Device.onRsten, hbusy, Device.touch]
  | rst => exact absurd rfl hrst
  | _ => rfl

/-- With none outstanding, only a received RSTEN makes one (item 32, log entry 16). -/
theorem react_armed_eq_false {d : Device} {i : Instr} (h : d.armed = false) (hne : i ≠ .rsten) (k : Nat) :
    (d.react k i).armed = false := by
  have hstart : ∀ p, (d.start k p).armed = false := fun p => by
    unfold Device.start
    split
    · rfl
    · split <;> exact h
  cases i with
  | wren => simp only [Device.react, Device.onWren]; split <;> [rfl; exact h]
  | read a n => simp only [Device.react, Device.onRead]; split <;> [rfl; exact h]
  | pp a data => exact hstart _
  | se a => exact hstart _
  | ce => exact hstart _
  | rsten => exact absurd rfl hne
  | rst => rfl
  | _ => exact h

/-- A program or erase instruction's frame asks the device to start the operation (R165, R167, R168). -/
theorem exists_encode_of_start {frame : List Byte} {p : Pending}
    (h : (∃ a d, frame = 0x02 :: addrBytes a ++ d ∧ p = .program a d) ∨
      (∃ a, frame = 0x20 :: addrBytes a ∧ p = .eraseSector a) ∨ (frame = [0xC7] ∧ p = .eraseChip)) :
    ∃ i, encode i = .frame frame none ∧ ∀ k d, Device.react k d i = Device.start k p d := by
  obtain ⟨a, d, rfl, rfl⟩ | ⟨a, rfl, rfl⟩ | ⟨rfl, rfl⟩ := h
  · exact ⟨.pp a d, rfl, fun _ _ => rfl⟩
  · exact ⟨.se a, rfl, fun _ _ => rfl⟩
  · exact ⟨.ce, rfl, fun _ _ => rfl⟩

end Sys2Proof.Machine

open Sys2Proof Sys2Proof.Machine Sys2Proof.Claims

/-- Settles O48: WREN's reaction is open only while BUSY, and WRDI's never. -/
theorem writeEnableLatch : Obligations.WriteEnableLatch := by
  intro w hattached harmed
  obtain ⟨k, hwren⟩ := deselect_react (i := .wren) (tx := [0x06]) hattached harmed rfl
  obtain ⟨k', hwrdi⟩ := deselect_react (i := .wrdi) (tx := [0x04]) hattached harmed rfl
  have hwren_idle : w.dev.pending = none → w.dev.react k .wren = { w.dev.touch k with wel := true } := fun h => by
    simp [Device.react, Device.onWren, busy_eq_false_iff.mpr h]
  rw [hwren, hwrdi]
  exact ⟨fun h => by rw [hwren_idle h], rfl, fun h => by rw [hwren_idle h]; exact ⟨h, rfl⟩, rfl, rfl⟩

/-- Settles O49: an idle device starts the operation exactly while WEL is set. -/
theorem programAndEraseNeedWriteEnable : Obligations.ProgramAndEraseNeedWriteEnable := by
  intro w frame p ⟨hattached, hidle, harmed⟩ hframe
  obtain ⟨i, hencode, hreact⟩ := exists_encode_of_start hframe
  obtain ⟨k, hdev⟩ := deselect_react hattached harmed hencode
  rw [hdev, hreact, start_idle hidle]
  constructor <;> intro hwel <;> rw [hwel]
  · exact ⟨rfl, rfl, rfl⟩
  · rfl

/-- Settles O50: the reaction to a read is the device itself, to READ while it is idle. -/
theorem readsLeaveTheDevice : Obligations.ReadsLeaveTheDevice := by
  intro w a hattached harmed
  obtain ⟨k1, hrdsr1⟩ := deselect_react (i := .rdsr1) (tx := [0x05]) hattached harmed rfl
  obtain ⟨k2, hrdsr2⟩ := deselect_react (i := .rdsr2) (tx := [0x35]) hattached harmed rfl
  obtain ⟨k3, hread⟩ := deselect_react (i := .read a 0) (tx := 0x03 :: addrBytes a) hattached harmed rfl
  exact ⟨hrdsr1, hrdsr2, fun hidle => hread.trans (by simp [Device.react, Device.onRead, busy_eq_false_iff.mpr hidle])⟩

/-- Settles O51: no reaction but that to RST touches the array of an idle device. -/
theorem frameEndLeavesEveryByteOfTheArray : Obligations.FrameEndLeavesEveryByteOfTheArray := by
  intro w i tx rx x ⟨hattached, hidle, harmed⟩ _ hrst hencode
  obtain ⟨k, hdev⟩ := deselect_react hattached harmed hencode
  rw [hdev, react_array_idle hidle hrst]

/-- Settles O60: after a whole instruction the bit says whether it was an RSTEN, and other bytes leave it. -/
theorem onlyAnRstenIsOutstanding : Obligations.OnlyAnRstenIsOutstanding := by
  intro d k wire harmed
  have hrsten : decodeWire 0 wire = .ok (.rsten, []) → wire = [0x66] := fun hwire => by
    obtain ⟨rx, hencode⟩ := exists_encode_of_decodeWire hwire
    obtain ⟨hbytes, -⟩ : wire = [0x66] ∧ rx = none := by simpa [encode, txBytes, opcRSTEN, eq_comm] using hencode
    exact hbytes
  cases wire with
  | nil => exact .inr ⟨harmed, by simp [decodeWire]⟩
  | cons b bs =>
    simp only [Device.frameEnd] at harmed
    split at harmed
    next i hwire =>
      obtain hd | hd := Bool.eq_false_or_eq_true d.armed <;> rw [hd] at harmed
      · obtain rfl : i = .rsten := of_decide_eq_true harmed
        exact .inl (hrsten hwire)
      · obtain rfl : i = .rsten := by
          by_contra hne
          exact absurd harmed (by simp [react_armed_eq_false hd hne])
        exact .inl (hrsten hwire)
    next hwire => exact .inr ⟨harmed, by simp [hwire]⟩
    next hwire => exact .inr ⟨harmed, by simp [hwire]⟩
end

section
/-! What a completed program or erase makes of the array (R67, R77, R165 to R168), and what a device answers (R163, R164, R166). -/

namespace Sys2Proof.Machine

open Sys2Proof.Claims

/-- Programming bytes from an address on: each byte of the range once, no other (R77). -/
theorem readByte_programBytes (d : List Byte) : ∀ (m : FlashArray) (a x : Nat),
    (m.programBytes a d).readByte x =
      if a ≤ x ∧ x < a + d.length then Config.programFn (m.readByte x) (d.getD (x - a) 0) else m.readByte x := by
  induction d with
  | nil => intro m a x; rw [if_neg (by simp only [List.length_nil]; omega)]; rfl
  | cons b d ih =>
    intro m a x
    rw [FlashArray.programBytes, ih, readByte_writeByte, List.length_cons]
    obtain hlt | rfl | hgt := Nat.lt_trichotomy x a
    · rw [if_neg (by omega), if_neg (by omega), if_neg (by omega)]
    · rw [if_neg (by omega), if_pos rfl, if_pos (by omega)]
      simp
    · have hsub : x - a = x - (a + 1) + 1 := by omega
      have hrange : (a + 1 ≤ x ∧ x < a + 1 + d.length) ↔ (a ≤ x ∧ x < a + (d.length + 1)) := by omega
      simp only [hrange, if_neg (show x ≠ a by omega), hsub, List.getD_cons_succ]

theorem rangeInDevice_eq_true {cfg : Cfg} {a n : Nat} (h : a < cfg.flashSize.val) (hend : a + n ≤ cfg.flashSize.val) :
    rangeInDevice cfg a n = true := by
  simp [rangeInDevice, h, hend]

/-- A program inside the device and inside one page (R165). -/
theorem complete_program_one_page {cfg : Cfg} {a : Addr} {d : List Byte} (h : a.toNat < cfg.flashSize.val)
    (hend : a.toNat + d.length ≤ cfg.flashSize.val) (hpage : extraPages a.toNat d.length = 0) (k : Nat)
    (m : FlashArray) :
    (Pending.program a d).complete cfg k m = m.programBytes a.toNat d := by
  simp [Pending.complete, rangeInDevice_eq_true h hend, hpage]

/-- A program inside the device that crosses a page (R68, item 29). -/
theorem complete_program_crossing {cfg : Cfg} {a : Addr} {d : List Byte} (h : a.toNat < cfg.flashSize.val)
    (hend : a.toNat + d.length ≤ cfg.flashSize.val) (hpage : extraPages a.toNat d.length ≠ 0) (k : Nat)
    (m : FlashArray) :
    (Pending.program a d).complete cfg k m =
      m.setPages (pageOf a.toNat) (.unknown k) (extraPages a.toNat d.length + 1) := by
  simp [Pending.complete, rangeInDevice_eq_true h hend, hpage]

theorem extraPages_eq_zero {a : Nat} {d : List Byte} (h : d = [] ∨ a / 256 = (a + d.length - 1) / 256) :
    extraPages a d.length = 0 := by
  simp only [extraPages, pageOf, Config.pageSize]
  obtain rfl | hpage := h
  · simp only [List.length_nil]; omega
  · omega

/-- A sector erase inside the device (R167). -/
theorem complete_eraseSector {cfg : Cfg} {a : Addr}
    (h : rangeInDevice cfg (sectorBase a).toNat Config.sectorSize = true) (k : Nat) (m : FlashArray) :
    (Pending.eraseSector a).complete cfg k m =
      m.setPages (pageOf (sectorBase a).toNat) .erased (Config.sectorSize / Config.pageSize) := by
  simp [Pending.complete, h]

/-- The base of a sector is its address rounded down to 4096 bytes (R67, R74). -/
theorem sectorBase_toNat (a : Addr) : (sectorBase a).toNat = a.toNat / 4096 * 4096 := by
  have hbits : sectorBase a = a >>> 12 <<< 12 := by
    apply BitVec.eq_of_getLsbD_eq
    intro i hi
    have hmask : (0xFFF000#24).getLsbD i = decide (12 ≤ i) := by
      revert hi; revert i; decide
    by_cases h12 : 12 ≤ i
    · simp [sectorBase, hmask, h12, show ¬ i < 12 by omega, hi, show 12 + (i - 12) = i by omega]
    · simp [sectorBase, hmask, h12]
  rw [hbits, BitVec.toNat_shiftLeft, BitVec.toNat_ushiftRight, Nat.shiftRight_eq_div_pow, Nat.shiftLeft_eq]
  have := a.isLt
  omega

theorem progress_finished {d : Device} {p : Pending} {k : Nat} (h : d.pending = some p) (hk : k.testBit 0 = true)
    (cfg : Cfg) : d.progress cfg k =
      { d.touch k with array := p.complete cfg k d.array, pending := none, wel := k.testBit 1 } := by
  simp [Device.progress, h, hk]

theorem progress_unfinished {d : Device} {k : Nat} (hk : k.testBit 0 = false) (cfg : Cfg) : d.progress cfg k = d := by
  unfold Device.progress
  split
  · rfl
  · rw [hk]; rfl

/-- What the device sends in a whole frame with a receive part, with no RSTEN outstanding. -/
theorem send_of_encode {cfg : Cfg} {n : Nat} {tx : List Byte} {d : Device} {i : Instr} (harmed : d.armed = false)
    (h : encode i = .frame tx (some n)) (k : Nat) : d.send cfg k n tx = d.sendFor cfg k n i := by
  simp [Device.send, harmed, decodeFrame_of_encode h]

/-- MemRead inside the device (R75, R166). -/
theorem readBytes_inside {cfg : Cfg} {a n : Nat} (h : a + n ≤ cfg.flashSize.val) (k : Nat) (d : Device) :
    d.readBytes cfg k a n = (List.range n).map fun i => d.array.readByte (a + i) := by
  refine List.map_congr_left fun i hi => if_pos ?_
  have := List.mem_range.mp hi
  omega

/-- An idle device answers a READ inside it with its array (R166). -/
theorem send_read {cfg : Cfg} {a : Addr} {n : Nat} {d : Device} (harmed : d.armed = false) (hidle : d.pending = none)
    (h : a.toNat + n ≤ cfg.flashSize.val) (k : Nat) :
    d.send cfg k n (0x03 :: addrBytes a) = (List.range n).map fun i => d.array.readByte (a.toNat + i) := by
  rw [send_of_encode (i := .read a n) (tx := 0x03 :: addrBytes a) harmed rfl, Device.sendFor,
    busy_eq_false_iff.mpr hidle, readBytes_inside h]
  rfl

theorem rxResult_attached {cfg : Cfg} {w : World} {bytes : List Byte} {rest : List Answer} (h : w.attached = true)
    (hanswers : w.answers = .ok bytes :: rest) (n : Nat) :
    w.rxResult cfg n = .ok (w.dev.send cfg w.drawCount n w.wire) := by
  simp [World.rxResult, World.nextAnswer, hanswers, h]

/-- SR1 has BUSY in bit 0 and the opaque bits above it (R37). -/
theorem sr1_bits (d : Device) : d.sr1.getLsbD 0 = d.busy ∧ d.sr1.extractLsb' 1 7 = d.sr1hi := by
  constructor
  · refine (BitVec.getLsbD_append (x := d.sr1hi) (y := BitVec.ofBool d.busy)).trans ?_
    simp
  · apply BitVec.eq_of_getLsbD_eq
    intro i hi
    rw [BitVec.getLsbD_extractLsb']
    refine (congrArg _ (BitVec.getLsbD_append (x := d.sr1hi) (y := BitVec.ofBool d.busy))).trans ?_
    simp [hi]

end Sys2Proof.Machine

open Sys2Proof Sys2Proof.Machine Sys2Proof.Claims

/-- Settles O54: inside one page the program goes byte by byte. -/
theorem programWritesExactlyItsRange : Obligations.ProgramWritesExactlyItsRange := by
  intro cfg k m a d x h hend hpage
  rw [complete_program_one_page h hend (extraPages_eq_zero hpage), readByte_programBytes]

/-- Settles O55: what is written lies in the pages from that of the first byte to that of the last. -/
theorem crossingProgramLeavesOtherPages : Obligations.CrossingProgramLeavesOtherPages := by
  intro cfg k m a d x hne hend hx
  have hpos := List.length_pos_iff.mpr hne
  have hstart : a.toNat < cfg.flashSize.val := by omega
  by_cases hpage : extraPages a.toNat d.length = 0
  · rw [complete_program_one_page hstart hend hpage, readByte_programBytes, if_neg (by omega)]
  · rw [complete_program_crossing hstart hend hpage, readByte_setPages, if_neg]
    simp only [extraPages, pageOf, Config.pageSize]
    omega

/-- Settles O56: the sixteen pages from the sector's base on are the addresses of the sector. -/
theorem eraseClearsItsSectorOrAll : Obligations.EraseClearsItsSectorOrAll := by
  intro cfg k m a x
  refine ⟨fun hend => ?_, readByte_fillAll .erased x⟩
  have hrange : rangeInDevice cfg (sectorBase a).toNat Config.sectorSize = true := by
    rw [sectorBase_toNat]
    exact rangeInDevice_eq_true (by omega) hend
  have hsector : (pageOf (sectorBase a).toNat ≤ pageOf x ∧
      pageOf x < pageOf (sectorBase a).toNat + Config.sectorSize / Config.pageSize) ↔ x / 4096 = a.toNat / 4096 := by
    simp only [pageOf, Config.pageSize, Config.sectorSize, sectorBase_toNat]
    omega
  rw [complete_eraseSector hrange, readByte_setPages]
  by_cases hx : x / 4096 = a.toNat / 4096
  · rw [if_pos (hsector.mpr hx), if_pos hx]; rfl
  · rw [if_neg (mt hsector.mp hx), if_neg hx]

/-- Settles O57: a draw's bit 0 says whether the device has finished at the Select. -/
theorem busyUntilTheEffectIsComplete : Obligations.BusyUntilTheEffectIsComplete := by
  intro cfg w hattached
  constructor
  · intro hidle
    simp [World.select, busy_eq_false_iff.mpr hidle]
  · intro p hp
    have hselect : (w.select cfg).dev = w.dev.progress cfg w.draw.1 := by
      simp [World.select, hattached, Device.busy, hp]
    rw [hselect]
    cases hk : w.draw.1.testBit 0 with
    | true => rw [progress_finished hp hk]; exact .inr ⟨rfl, _, rfl⟩
    | false => exact .inl (progress_unfinished hk cfg)

/-- Settles O53: an attached device answers with what it sends, and the frame says what that is. -/
theorem deviceAnswers : Obligations.DeviceAnswers := by
  intro cfg w bytes rest a n hattached harmed hanswers
  have hsend : ∀ (tx : List Byte) (n : Nat), ({ w with wire := tx } : World).rxResult cfg n =
      .ok (w.dev.send cfg w.drawCount n tx) :=
    fun tx n => rxResult_attached (w := { w with wire := tx }) hattached hanswers n
  refine ⟨⟨w.dev.sr1, ?_, sr1_bits w.dev⟩, ?_, fun hidle h => ?_⟩
  · rw [hsend, send_of_encode (i := .rdsr1) (tx := [0x05]) harmed rfl]
    exact congrArg RxResult.ok (fitBytes_exact _ [w.dev.sr1])
  · rw [hsend, send_of_encode (i := .rdsr2) (tx := [0x35]) harmed rfl]
    exact congrArg RxResult.ok (fitBytes_exact _ [w.dev.sr2])
  · rw [hsend, send_read harmed hidle h]

/-- Settles O58: the accepted program is pending after its frame, and its completion is the array the READ finds. -/
theorem readAfterCompletedProgram : Obligations.ReadAfterCompletedProgram := by
  intro cfg k1 k2 k3 dev a d hidle harmed hwel hk h hend hpage
  have hdev1 : dev.frameEnd k1 (0x02 :: addrBytes a ++ d) = { dev.touch k1 with pending := some (.program a d) } := by
    rw [frameEnd_of_encode (i := .pp a d) (tx := 0x02 :: addrBytes a ++ d) harmed rfl, Device.react, Device.onPp,
      start_idle hidle, hwel]
    rfl
  intro dev1 dev2
  have hdev2 : dev2 = _ := (congrArg (Device.progress cfg k2) hdev1).trans (progress_finished rfl hk cfg)
  have hpending : dev2.pending = none := by rw [hdev2]
  have harmed2 : dev2.armed = false := by rw [hdev2]; exact harmed
  have harray : dev2.array = (Pending.program a d).complete cfg k2 dev.array := by rw [hdev2]; rfl
  refine ⟨by rw [show dev1 = _ from hdev1]; rfl, busy_eq_false_iff.mpr hpending, ?_⟩
  rw [send_read harmed2 hpending hend, harray]
  refine List.map_congr_left fun i hi => ?_
  have hi := List.mem_range.mp hi
  refine (programWritesExactlyItsRange cfg k2 dev.array a d (a.toNat + i) h hend hpage).trans ?_
  rw [if_pos (by omega), Nat.add_sub_cancel_left]
end
